-- ==== Sys2Proof/Word.lean ====
section
/-! DEFINITION. The word types of the Zarvel ZB860: bytes, belt positions and the small index types. -/

namespace Sys2Proof

/-- A byte of the intake link or of the supervisor port. -/
abbrev Byte := BitVec 8

/-- A belt position: 24 bits, wrapping (spec/00_scope.md, Positions and the half-range rule). -/
abbrev Pos := BitVec 24

/-- An outlet number, 0 to 15. -/
abbrev OutletNo := Fin 16

/-- A concession key, 0 to 15; key 0 is house or generic. -/
abbrev KeyNo := Fin 16

/-- An item class, 0 to 63. -/
abbrev ClassNo := Fin 64

/-- A slot of the Track Table, 0 to 255 (R23). -/
abbrev Slot := Fin 256

/-- An index of the route table, 0 to 255 (R55). -/
abbrev RouteIx := Fin 256

end Sys2Proof
end

