-- ==== Sys2Proof/Syntax.lean ====
section
/-! DEFINITION. The commands of the ZB860: one constructor for each row of spec/opcode_table.json, in the table's order. -/

namespace Sys2Proof

/-- The lines sampled at one millisecond tick (R16, R92, R93, R96, R101, R112). Bit i of a 16-bit field is outlet i's line. -/
structure LineSample where
  /-- DRIVE_ON asserted. -/
  driveOn : Bool
  /-- HOME lines: set is home. -/
  home : BitVec 16
  /-- EYE lines: set is blocked. -/
  eye : BitVec 16
  /-- RACK lines: set is present. -/
  rack : BitVec 16
  /-- SWAP lines: set is pressed. -/
  swap : BitVec 16
  /-- KEY lines of each outlet, line i giving bit i (R93). -/
  keys : Vector KeyNo 16
  deriving DecidableEq, Repr

/-- What ends an intake frame as a bad frame (R137, R138). -/
inductive BadCause where
  | atLength
  | atCrc
  | byteError
  deriving DecidableEq, Repr

/-- The value of SET OUTLET FIELD: the 5-byte form's three bytes, or the 10-byte form's accept mask (spec/11). -/
inductive FieldArg where
  | short (value : BitVec 24)
  | mask (flags : BitVec 64)
  deriving DecidableEq, Repr

/-- One command. The operands of a supervisor-port request are its argument bytes, laid out as spec/11 gives them. -/
inductive Instr where
  /-- R207; `csLow`: SP_CS_N stands asserted when RESET_N is released (R180). -/
  | powerOnReset (csLow : Bool)
  /-- R11. -/
  | millisecondTick (lines : LineSample)
  /-- R3; the accepted levels of ENC_A and ENC_B become `a` and `b`. -/
  | encoderStep (a b : Bool)
  /-- R12. -/
  | speedWindowExpiry
  /-- R16. -/
  | stall
  /-- R113. -/
  | strokeEnd (o : OutletNo)
  /-- R114. -/
  | recoveryEnd (o : OutletNo)
  /-- R115. -/
  | homeTimeout (o : OutletNo)
  /-- R112; `home` is the accepted level. -/
  | homeLevelAccepted (o : OutletNo) (home : Bool)
  /-- R128. -/
  | confirmWindowExpiry (o : OutletNo)
  /-- R93; `key` is what the outlet's KEY lines read. -/
  | rackArrival (o : OutletNo) (key : KeyNo)
  /-- R94. -/
  | rackRemoval (o : OutletNo)
  /-- R96. -/
  | swapPress (o : OutletNo)
  /-- R102. -/
  | passage (o : OutletNo)
  /-- R104. -/
  | chuteBlocked (o : OutletNo)
  /-- R105. -/
  | chuteClear (o : OutletNo)
  /-- R138. -/
  | badFrame (cause : BadCause)
  /-- R140; `level` is the protocol level. -/
  | join (level : Byte)
  /-- R139. -/
  | keepalive
  /-- R150. -/
  | notice (number : Byte) (stamp : Pos) (length : BitVec 16) (cls : ClassNo) (key : KeyNo)
  /-- R157; `selClass` and `selKey` are the change mask's bits 0 and 1. -/
  | revise (number : Byte) (selClass selKey : Bool) (cls : ClassNo) (key : KeyNo)
  /-- R142. -/
  | syncTimeout
  /-- R144. -/
  | linkSilenceTimeout
  /-- R147. -/
  | beacon
  /-- R147. -/
  | beaconTransmitDone
  /-- R179; `n` bytes are clocked after the read code. -/
  | readResponse (n : Nat)
  /-- R183. -/
  | queryStatus
  /-- R184. -/
  | setParam (number : Byte) (value : BitVec 24)
  /-- R184. -/
  | getParam (number : Byte)
  /-- R185. -/
  | setOutletField (outlet field : Byte) (value : FieldArg)
  /-- R91. -/
  | getOutlet (outlet : Byte)
  /-- R90. -/
  | outletEnable (outlet : Byte)
  /-- R90. -/
  | outletDisable (outlet : Byte)
  /-- R97. -/
  | outletClose (outlet : Byte)
  /-- R98. -/
  | reopen (outlet : Byte)
  /-- R117. -/
  | clearFault (outlet : Byte)
  /-- R124. -/
  | testStroke (outlet : Byte)
  /-- R56. -/
  | putClass (cls weight : Byte) (head : BitVec 16) (audit : Byte) (auditHead : BitVec 16)
  /-- R57. -/
  | putRoute (index kind : Byte) (field : BitVec 16) (chain : Byte)
  /-- R58. -/
  | getPlanEntry (bank table index : Byte)
  /-- R59. -/
  | commitPlan
  /-- R67. -/
  | readPlanStatus
  /-- R67. -/
  | clearPlanStatus
  /-- R163. -/
  | startService
  /-- R164. -/
  | stopService
  /-- R171. -/
  | resetTracking
  /-- R50. -/
  | findTrack (tag : BitVec 16)
  /-- R50; `none` is the short form. -/
  | nextTrack (tag : Option (BitVec 16))
  /-- R51. -/
  | findAt (d : BitVec 24)
  /-- R190. -/
  | amendTrack (tag : BitVec 16) (sel cls key : Byte)
  /-- R191. -/
  | withdrawTrack (tag : BitVec 16)
  /-- R192. -/
  | readTallies (group index clear : Byte)
  /-- R193. -/
  | setAttention (enables lineMap : Byte)
  /-- R194. -/
  | ackAttention (sel : Byte)
  /-- R1; the levels sampled. -/
  | encoderSample (a b : Bool)
  /-- R134, R137; the levels that LINK_RX takes bit time by bit time, the stop level set, up to the bit time that completes a byte. On an idle line the
  start level, eight data bits and the stop level are a byte; levels that end within a byte leave it in progress. -/
  | receivedByte (levels : List Bool)
  /-- R177; the whole bytes clocked, and the bits left over. -/
  | badPortFrame (bytes : List Byte) (extraBits : Nat)
  /-- R180. -/
  | resetHoldCleared
  deriving DecidableEq, Repr

end Sys2Proof
end

