-- ==== Sys2Proof/WellFormed.lean ====
section
/-! DEFINITION. Which terms of `Instr` are commands as their rows name them. `exec` gives every term a meaning; an ill-formed one is
taken as what its bytes are (R137, R175). -/

namespace Sys2Proof

/-- The read code: a transaction that opens with it is a read (R175, spec/11). -/
def readCode : Byte := 0x5A

/-- A JOIN is valid at protocol level 1 alone (R137); a received byte takes at least one bit time (R134); a request transaction has at least one whole byte, does not open with the read
code, and leaves fewer than eight bits over (R175). -/
def Instr.wellFormed : Instr → Bool
  | .join level => level == 1
  | .receivedByte levels => !levels.isEmpty
  | .badPortFrame bytes extra => !bytes.isEmpty && bytes.head? != some readCode && extra < 8
  | _ => true

end Sys2Proof
end

