-- ==== Sys2Proof/Decode.lean ====
section
/-! DEFINITION. Bytes and commands. No row of spec/opcode_table.json has bits, so no table word spells a command; the byte-level views the
spec does give (spec/11) are here: the CRC-8, the frames of the intake link and the request frames of the supervisor port, read and
written. -/

namespace Sys2Proof

/-- The command that a word spells by the table's bits: none, since the table gives no row bits. -/
def decodeTableWord (_nbits _w : Nat) : Option Instr := none

/-! ### Bytes -/

/-- `n` bytes of `v`, the most significant first (spec/11). -/
def be : Nat → Nat → List Byte
  | 0, _ => []
  | n + 1, v => BitVec.ofNat 8 (v / 256 ^ n) :: be n v

/-- The number whose bytes these are, the most significant first. -/
def ofBe (bytes : List Byte) : Nat := bytes.foldl (fun acc b => acc * 256 + b.toNat) 0

/-- One shift of the CRC register towards its most significant end (R136). -/
def crcShift (r : Byte) : Byte := if r.msb then (r <<< 1) ^^^ 0x07 else r <<< 1

/-- The register after one byte, the byte-wise form of R136. -/
def crcByte (r b : Byte) : Byte :=
  crcShift (crcShift (crcShift (crcShift (crcShift (crcShift (crcShift (crcShift (r ^^^ b))))))))

/-- CRC-8 with generator x^8 + x^2 + x + 1, starting from 0 (R136). -/
def crc8 (bytes : List Byte) : Byte := bytes.foldl crcByte 0

/-! ### Bytes on a line of the intake link -/

/-- The eight data bits of a byte, the least significant first (R134). -/
def byteBits (b : Byte) : List Bool := [0, 1, 2, 3, 4, 5, 6, 7].map b.getLsbD

/-- The byte whose data bits these are, the least significant first (R134). -/
def byteOfBits (bits : List Bool) : Byte := BitVec.ofNat 8 (bits.foldr (fun bit n => 2 * n + bit.toNat) 0)

/-- The levels of a byte, one for each bit time (R134): the start bit, the data bits and the stop bit. The stop level is set. -/
def byteLevels (b : Byte) : List Bool := false :: byteBits b ++ [true]

/-! ### Intake frames -/

/-- The start byte of an intake frame. -/
def startByte : Byte := 0xA5

/-- The payload length of each kind of frame that the part receives; `none` for every other type code (R137, spec/11). -/
def payloadLength (type : Byte) : Option Nat :=
  match type.toNat with
  | 0x01 => some 1
  | 0x02 => some 0
  | 0x03 => some 8
  | 0x04 => some 4
  | _ => none

/-- The command of a frame whose CRC is right, by the layouts of spec/11 (R135). A JOIN whose level is not 1 is found bad when it is
taken (R137). -/
def decodeIntake (type : Byte) (payload : List Byte) : Option Instr :=
  match type.toNat, payload with
  | 0x01, [level] => some (.join level)
  | 0x02, [] => some .keepalive
  | 0x03, [n, s2, s1, s0, l1, l0, c, k] =>
    some (.notice n (BitVec.ofNat 24 (ofBe [s2, s1, s0])) (BitVec.ofNat 16 (ofBe [l1, l0])) (Fin.ofNat 64 c.toNat) (Fin.ofNat 16 k.toNat))
  | 0x04, [n, m, c, k] => some (.revise n (m.getLsbD 0) (m.getLsbD 1) (Fin.ofNat 64 c.toNat) (Fin.ofNat 16 k.toNat))
  | _, _ => none

/-- The type code of a frame command. -/
def intakeType : Instr → Option Byte
  | .join _ => some 0x01
  | .keepalive => some 0x02
  | .notice .. => some 0x03
  | .revise .. => some 0x04
  | _ => none

/-- The payload of a frame command, by the layouts of spec/11. -/
def intakePayload : Instr → List Byte
  | .join level => [level]
  | .notice n stamp length cls key => n :: be 3 stamp.toNat ++ be 2 length.toNat ++ [BitVec.ofNat 8 cls.val, BitVec.ofNat 8 key.val]
  | .revise n sc sk cls key => [n, (if sc then 1 else 0) + (if sk then 2 else 0), BitVec.ofNat 8 cls.val, BitVec.ofNat 8 key.val]
  | _ => []

/-- A frame on the intake link: start byte, type, length, payload, CRC (spec/11). -/
def linkFrame (type : Byte) (payload : List Byte) : List Byte :=
  let body := type :: BitVec.ofNat 8 payload.length :: payload
  startByte :: body ++ [crc8 body]

/-- The bytes of a BEACON carrying a position and a credit limit (R147, spec/11). -/
def beaconFrame (position : Pos) (limit : Byte) : List Byte := linkFrame 0x81 (be 3 position.toNat ++ [limit])

/-! ### Supervisor port request frames -/

/-- The request code of a request command (spec/11). -/
def requestCode : Instr → Option Byte
  | .queryStatus => some 0x01
  | .setParam .. => some 0x02
  | .getParam _ => some 0x03
  | .setOutletField .. => some 0x10
  | .getOutlet _ => some 0x11
  | .outletEnable _ => some 0x12
  | .outletDisable _ => some 0x13
  | .outletClose _ => some 0x14
  | .reopen _ => some 0x15
  | .clearFault _ => some 0x16
  | .testStroke _ => some 0x17
  | .putClass .. => some 0x20
  | .putRoute .. => some 0x21
  | .getPlanEntry .. => some 0x22
  | .commitPlan => some 0x23
  | .readPlanStatus => some 0x24
  | .clearPlanStatus => some 0x25
  | .startService => some 0x30
  | .stopService => some 0x31
  | .resetTracking => some 0x32
  | .findTrack _ => some 0x40
  | .nextTrack _ => some 0x41
  | .findAt _ => some 0x42
  | .amendTrack .. => some 0x43
  | .withdrawTrack _ => some 0x44
  | .readTallies .. => some 0x50
  | .setAttention .. => some 0x51
  | .ackAttention _ => some 0x52
  | _ => none

/-- The argument bytes of a request command (spec/11). -/
def requestArgs : Instr → List Byte
  | .setParam n v => n :: be 3 v.toNat
  | .getParam n => [n]
  | .setOutletField o f (.short v) => o :: f :: be 3 v.toNat
  | .setOutletField o f (.mask m) => o :: f :: be 8 m.toNat
  | .getOutlet o | .outletEnable o | .outletDisable o | .outletClose o | .reopen o | .clearFault o | .testStroke o => [o]
  | .putClass c w h a ah => c :: w :: be 2 h.toNat ++ a :: be 2 ah.toNat
  | .putRoute i k f ch => i :: k :: be 2 f.toNat ++ [ch]
  | .getPlanEntry b t i => [b, t, i]
  | .findTrack t | .nextTrack (some t) | .withdrawTrack t => be 2 t.toNat
  | .findAt d => be 3 d.toNat
  | .amendTrack t s c k => be 2 t.toNat ++ [s, c, k]
  | .readTallies g i c => [g, i, c]
  | .setAttention e m => [e, m]
  | .ackAttention s => [s]
  | _ => []

/-- The request frame of a request command: code, length, arguments, CRC (spec/11); no byte for any other command. -/
def portFrame (c : Instr) : List Byte :=
  match requestCode c with
  | none => []
  | some code =>
    let body := code :: BitVec.ofNat 8 (requestArgs c).length :: requestArgs c
    body ++ [crc8 body]

/-- Whether a request code names a request of the port (R177, spec/11). -/
def knownRequest (code : Byte) : Bool :=
  let n := code.toNat
  (1 ≤ n && n ≤ 3) || (0x10 ≤ n && n ≤ 0x17) || (0x20 ≤ n && n ≤ 0x25) || (0x30 ≤ n && n ≤ 0x32)
    || (0x40 ≤ n && n ≤ 0x44) || (0x50 ≤ n && n ≤ 0x52)

/-- The outlet action of a code, naming an outlet (spec/11). -/
def outletRequest (code : Nat) (o : Byte) : Option Instr :=
  match code with
  | 0x11 => some (.getOutlet o)
  | 0x12 => some (.outletEnable o)
  | 0x13 => some (.outletDisable o)
  | 0x14 => some (.outletClose o)
  | 0x15 => some (.reopen o)
  | 0x16 => some (.clearFault o)
  | 0x17 => some (.testStroke o)
  | _ => none

/-- The request of a code with no argument byte. -/
def decodeRequest0 (code : Nat) : Option Instr :=
  match code with
  | 0x01 => some .queryStatus
  | 0x23 => some .commitPlan
  | 0x24 => some .readPlanStatus
  | 0x25 => some .clearPlanStatus
  | 0x30 => some .startService
  | 0x31 => some .stopService
  | 0x32 => some .resetTracking
  | 0x41 => some (.nextTrack none)
  | _ => none

/-- The request of a code with one argument byte. -/
def decodeRequest1 (code : Nat) (x : Byte) : Option Instr :=
  match code with
  | 0x03 => some (.getParam x)
  | 0x52 => some (.ackAttention x)
  | n => outletRequest n x

/-- The request of a code with two argument bytes. -/
def decodeRequest2 (code : Nat) (x y : Byte) : Option Instr :=
  match code with
  | 0x40 => some (.findTrack (BitVec.ofNat 16 (ofBe [x, y])))
  | 0x41 => some (.nextTrack (some (BitVec.ofNat 16 (ofBe [x, y]))))
  | 0x44 => some (.withdrawTrack (BitVec.ofNat 16 (ofBe [x, y])))
  | 0x51 => some (.setAttention x y)
  | _ => none

/-- The request of a code with three argument bytes. -/
def decodeRequest3 (code : Nat) (x y z : Byte) : Option Instr :=
  match code with
  | 0x22 => some (.getPlanEntry x y z)
  | 0x42 => some (.findAt (BitVec.ofNat 24 (ofBe [x, y, z])))
  | 0x50 => some (.readTallies x y z)
  | _ => none

/-- The request of a code with five argument bytes. -/
def decodeRequest5 (code : Nat) (a b c d e : Byte) : Option Instr :=
  match code with
  | 0x10 => some (.setOutletField a b (.short (BitVec.ofNat 24 (ofBe [c, d, e]))))
  | 0x21 => some (.putRoute a b (BitVec.ofNat 16 (ofBe [c, d])) e)
  | 0x43 => some (.amendTrack (BitVec.ofNat 16 (ofBe [a, b])) c d e)
  | _ => none

/-- The request of a code and its argument bytes; `none` when the argument length is not one permitted for the code (R177). -/
def decodeRequest (code : Byte) (args : List Byte) : Option Instr :=
  let n := code.toNat
  match args with
  | [] => decodeRequest0 n
  | [x] => decodeRequest1 n x
  | [x, y] => decodeRequest2 n x y
  | [x, y, z] => decodeRequest3 n x y z
  | [a, b, c, d] => if n = 0x02 then some (.setParam a (BitVec.ofNat 24 (ofBe [b, c, d]))) else none
  | [a, b, c, d, e] => decodeRequest5 n a b c d e
  | [c, w, h1, h0, a, g1, g0] =>
    if n = 0x20 then some (.putClass c w (BitVec.ofNat 16 (ofBe [h1, h0])) a (BitVec.ofNat 16 (ofBe [g1, g0]))) else none
  | [o, f, m7, m6, m5, m4, m3, m2, m1, m0] =>
    if n = 0x10 then some (.setOutletField o f (.mask (BitVec.ofNat 64 (ofBe [m7, m6, m5, m4, m3, m2, m1, m0])))) else none
  | _ => none

/-- What R177 finds of a request transaction's frame. -/
inductive PortJudgement where
  /-- Answered BAD_FRAME. -/
  | bad
  /-- Answered UNKNOWN_REQUEST. -/
  | unknown
  /-- Carried to the request's own checks. -/
  | request (c : Instr)
  deriving DecidableEq, Repr

/-- The three judgements of R177, in their order, on the whole bytes clocked and the bits left over. -/
def judgePortFrame (bytes : List Byte) (extraBits : Nat) : PortJudgement :=
  match bytes with
  | code :: len :: rest =>
    let args := rest.dropLast
    if extraBits ≠ 0 ∨ rest = [] ∨ 16 < len.toNat ∨ bytes.length ≠ 3 + len.toNat ∨ rest.getLast? ≠ some (crc8 (code :: len :: args)) then .bad
    else if knownRequest code = false then .unknown
    else
      match decodeRequest code args with
      | none => .bad
      | some c => .request c
  | _ => .bad

end Sys2Proof
end

