-- ==== Sys2Proof/Machine/State.lean ====
section
/-! DEFINITION. The state of the ZB860 as plain data, its reasons to stop, and the state after power-on reset. -/

namespace Sys2Proof.Machine

/-! ### Enumerations (spec/11, Codes of the enumerated fields) -/

/-- R162. -/
inductive ServiceState where
  | standby | serving | draining | failsafe
  deriving DecidableEq, Repr

/-- R139. -/
inductive LinkState where
  | offline | syncing | active
  deriving DecidableEq, Repr

/-- The states of a track record (spec/02, Record states and waypoints). -/
inductive RecordState where
  | pending | routed | due | fired | carried
  deriving DecidableEq, Repr

/-- The refusal reasons of the acceptance test, in the order of R68's codes. -/
inductive RefusalReason where
  | notOpen | beyondEnd | cls | key | span | capacity | late | spacing
  deriving DecidableEq, Repr

/-- The carry reasons (spec/02, Record contents). -/
inductive CarryReason where
  | chainEnd | noChain | planCheck | clusterLimit | overlapLate | fireLate | paddleBusy | strokeMiss
  deriving DecidableEq, Repr

/-- The rack states (spec/04). -/
inductive RackState where
  | absent | opened | full | closing | swapReady
  deriving DecidableEq, Repr

/-- The paddle states (spec/05). -/
inductive PaddleState where
  | idle | stroke | recover | faulted
  deriving DecidableEq, Repr

/-- The lamp patterns (R107). -/
inductive Lamp where
  | off | slow | steady | fast
  deriving DecidableEq, Repr

/-- The kinds of plan check (R64, R65, R66). -/
inductive CheckKind where
  | walkLimit | pastEnd | doubleJump
  deriving DecidableEq, Repr

/-- The response statuses (R181). -/
inductive Status where
  | ok | clamped | badFrame | unknownRequest | range | notFound | tooLate | notStandby | noPlan | noRack | notHome | outletEnabled
  | paddleBusy
  deriving DecidableEq, Repr

/-- The outcomes of a retirement (spec/02, Retirement). -/
inductive RetireOutcome where
  | delivered | ended | withdrawn | lost
  deriving DecidableEq, Repr

/-! ### Filters, parameters, belt -/

/-- A sampled line with its filter: the accepted level (`none` in acquisition, R2), the level of the run being counted in acquisition, and
the count of samples (R1, R92, R96, R101, R112). -/
structure Filter where
  accepted : Option Bool
  run : Bool
  count : Nat
  deriving DecidableEq, Repr

/-- A filter in acquisition with no sample counted. -/
def Filter.acquiring : Filter := { accepted := none, run := false, count := 0 }

/-- The global parameters (spec/11), but for AUDIT_SEED, which is the audit sampler. -/
structure Params where
  msDiv : Nat
  encFilter : Nat
  encInvert : Bool
  window : Nat
  reverseAllow : Nat
  stallTime : Nat
  clearance : Nat
  q : Nat
  dEnd : Nat
  armMargin : Nat
  auditRate : Nat
  rackDebounce : Nat
  eyeFilter : Nat
  chuteBlockTime : Nat
  chuteClearTime : Nat
  airBudget : Nat
  missLimit : Nat
  syncTimeout : Nat
  linkSilence : Nat
  beaconPeriod : Nat
  creditMargin : Nat
  noticeAge : Nat
  deriving DecidableEq, Repr

/-- The Time Base's divider (R11). -/
structure TimeBase where
  divider : Nat
  deriving DecidableEq, Repr

/-- The Belt Position Unit (spec/01). -/
structure Bpu where
  encA : Filter
  encB : Filter
  position : Pos
  hwm : Pos
  reverseExcess : Bool
  errorLevel : Nat
  windowTimer : Nat
  windowCount : Int
  windowIllegal : Bool
  v : Nat
  stallTimer : Nat
  stallRaised : Bool
  deriving DecidableEq, Repr

/-! ### Track records -/

/-- A record's tag: slot and generation (R24). -/
structure Tag where
  slot : Slot
  gen : BitVec 4
  deriving DecidableEq, Repr

/-- A tag as a number: slot × 16 + generation (R24). -/
def Tag.toNat (t : Tag) : Nat := t.slot.val * 16 + t.gen.toNat

/-- The flags of a record (R27). -/
structure Flags where
  audit : Bool
  amended : Bool
  stampClamped : Bool
  rerouted : Bool
  deriving DecidableEq, Repr

/-- The cluster field: on the leader the member count, on a member the leader's tag. -/
inductive ClusterLink where
  | leader (count : Nat)
  | member (leader : Tag)
  deriving DecidableEq, Repr

/-- The route field (R26, R37). -/
structure Route where
  outlet : OutletNo
  entry : RouteIx
  firePoint : Pos
  units : Nat
  deriving DecidableEq, Repr

/-- A live track record (spec/02, Record contents), with its waypoint (R28). -/
structure Record where
  slot : Slot
  gen : BitVec 4
  number : Byte
  stamp : Pos
  length : Nat
  cls : ClassNo
  key : KeyNo
  state : RecordState
  flags : Flags
  cluster : Option ClusterLink
  route : Option Route
  lastRefusal : Option RefusalReason
  carry : Option CarryReason
  waypoint : Option Pos
  deriving DecidableEq, Repr

/-- The Track Controller: the live records in belt order (R31) and the slot generations (R23). -/
structure Tc where
  records : List Record
  gens : Vector (BitVec 4) 256
  deriving DecidableEq, Repr

/-! ### The routing plan -/

/-- A class entry; a head that is `none` is NONE. -/
structure ClassEntry where
  weight : Nat
  head : Option RouteIx
  auditEnable : Bool
  auditHead : Option RouteIx
  deriving DecidableEq, Repr

/-- A route entry (R57). -/
inductive RouteEntry where
  | stop
  | outlet (o : OutletNo) (chain : Bool)
  | jump (target : RouteIx) (chain : Bool)
  deriving DecidableEq, Repr

/-- A plan bank (R55). -/
structure Bank where
  classes : Vector ClassEntry 64
  routes : Vector RouteEntry 256
  deriving DecidableEq, Repr

/-- The recorded plan check (R66). -/
structure PlanCheck where
  cls : ClassNo
  entry : RouteIx
  kind : CheckKind
  deriving DecidableEq, Repr

/-- The Route Decider (spec/03). `active` is the active-bank indicator: set is bank 1. -/
structure Rd where
  bank0 : Bank
  bank1 : Bank
  active : Bool
  planValid : Bool
  planStatus : Option PlanCheck
  sampler : BitVec 12
  deriving DecidableEq, Repr

/-! ### Outlets -/

/-- The parameter fields of an outlet (R86). -/
structure OutletFields where
  position : Nat
  latency : Nat
  trim : Int
  strokeTime : Nat
  recoverTime : Nat
  homeTimeout : Nat
  confirmWindow : Nat
  maxSpan : Nat
  lateTolerance : Nat
  capacity : Nat
  warnLevel : Nat
  acceptMask : BitVec 64
  level : Nat
  holdOnBlock : Bool
  deriving DecidableEq, Repr

/-- The latest fire point and the cluster that set it, named by its leader's tag (R76, R77). -/
structure Latest where
  point : Pos
  owner : Tag
  deriving DecidableEq, Repr

/-- A waiting fire request (spec/05, Fire requests). -/
inductive Request where
  | deadline (members : List Tag) (lateLimit : Pos) (units : Nat)
  | test
  deriving DecidableEq, Repr

/-- A stroke set: its records in belt order and its units (R126). -/
structure StrokeSet where
  members : List Tag
  units : Nat
  deriving DecidableEq, Repr

/-- An outlet station: its record in the Outlet Controller (spec/04) and its paddle sequencer (spec/05). -/
structure Outlet where
  fields : OutletFields
  enabled : Bool
  rack : RackState
  rackKey : Option KeyNo
  fill : Nat
  committed : Nat
  latest : Option Latest
  blocked : Bool
  missRun : Nat
  rackFilter : Filter
  eyeFilter : Filter
  blockTimer : Nat
  clearTimer : Nat
  buttonFilter : Filter
  paddle : PaddleState
  homeFilter : Filter
  strokeTimer : Nat
  recoverTimer : Nat
  strokeFigure : Nat
  recoverFigure : Nat
  homeFigure : Nat
  request : Option Request
  strokeSet : Option StrokeSet
  confirmTimer : Nat
  windowFigure : Nat
  deriving DecidableEq, Repr

/-- What the Outlet Controller holds for all outlets: the lamp cycle (R107). -/
structure Oc where
  lampCycle : Nat
  deriving DecidableEq, Repr

/-- The Air Arbiter (R122). -/
structure Aa where
  slotsInUse : Nat
  deriving DecidableEq, Repr

/-! ### Intake link -/

/-- The frame assembler with the bytes gathered so far (R137). -/
inductive Assembler where
  | hunt
  | type
  | length (type : Byte)
  | payload (type : Byte) (left : Nat) (got : List Byte)
  | check (type : Byte) (got : List Byte)
  deriving DecidableEq, Repr

/-- The receive line (R134): idle, or a byte in progress with the data bits taken since its start bit, the first taken first. -/
inductive RxLine where
  | idle
  | byte (bits : List Bool)
  deriving DecidableEq, Repr

/-- The beacon transmitter (R147): the beacon being sent and the one that waits. -/
inductive Transmitter where
  | idle
  | sending (now : List Byte) (waiting : Option (List Byte))
  deriving DecidableEq, Repr

/-- The Intake Link Controller (spec/06). -/
structure Ilc where
  link : LinkState
  rx : RxLine
  assembler : Assembler
  badRun : Nat
  silence : Nat
  syncTimer : Nat
  syncFrames : Nat
  beaconTimer : Nat
  tx : Transmitter
  e : Byte
  l : Byte
  deriving DecidableEq, Repr

/-! ### Supervisor port, tallies, pins -/

/-- A response: its status and its data bytes (R181). -/
structure Response where
  status : Status
  data : List Byte
  deriving DecidableEq, Repr

/-- The Supervisor Port (spec/08). `miso` holds the bytes the last transaction drove on SP_MISO; every byte beyond them is all ones. -/
structure Sp where
  requestBuffer : List Byte
  response : Option Response
  ready : Bool
  resetHold : Bool
  miso : List Byte
  deriving DecidableEq, Repr

/-- The five tallies of a key (R196). -/
structure KeyTally where
  delivered : Nat
  ended : Nat
  withdrawn : Nat
  lost : Nat
  racks : Nat
  deriving DecidableEq, Repr

/-- The seven tallies of an outlet (R197). -/
structure OutletTally where
  items : Nat
  units : Nat
  strokes : Nat
  misses : Nat
  abandoned : Nat
  strays : Nat
  racks : Nat
  deriving DecidableEq, Repr

/-- The ten device tallies (R198). -/
structure DeviceTally where
  badFrames : Nat
  outOfOrder : Nat
  overruns : Nat
  refused : Nat
  stale : Nat
  gapTotal : Nat
  unmatched : Nat
  planChecks : Nat
  trackLosses : Nat
  encoderFaults : Nat
  deriving DecidableEq, Repr

/-- The Tally and Attention Unit (spec/09). Bits 0 to 7 of an attention byte are RACK, OUTLET, BELT, LINK, INTAKE, PRESSURE, PLAN, FAILSAFE;
in the line map a clear bit is A and a set bit is B (spec/11). -/
structure Tau where
  keys : Vector KeyTally 16
  outlets : Vector OutletTally 16
  device : DeviceTally
  latches : BitVec 8
  enables : BitVec 8
  lineMap : BitVec 8
  deriving DecidableEq, Repr

/-- The input pins as last sampled (spec/11, Signals). -/
structure Pins where
  encA : Bool
  encB : Bool
  lines : LineSample
  deriving DecidableEq, Repr

/-- An event that a millisecond tick brings about and that is a step of its own (log 2). -/
inductive Event where
  | windowExpiry
  | stall
  | homeLevel (o : OutletNo)
  | rackArrival (o : OutletNo)
  | rackRemoval (o : OutletNo)
  | swapPress (o : OutletNo)
  | passage (o : OutletNo)
  | strokeEnd (o : OutletNo)
  | recoveryEnd (o : OutletNo)
  | homeTimeout (o : OutletNo)
  | confirmExpiry (o : OutletNo)
  | chuteBlocked (o : OutletNo)
  | chuteClear (o : OutletNo)
  | syncTimeout
  | linkSilence
  | beacon
  deriving DecidableEq, Repr

/-! ### The state -/

/-- The state of the ZB860. `due` and `freeNext` are the model's own (log 2, log 17); `pending` is the queue of waiting commands. -/
structure State where
  params : Params
  time : TimeBase
  bpu : Bpu
  tc : Tc
  rd : Rd
  oc : Oc
  outlets : Vector Outlet 16
  aa : Aa
  ilc : Ilc
  sp : Sp
  service : ServiceState
  tau : Tau
  pins : Pins
  due : List Event
  freeNext : Nat
  pending : List Instr
  deriving DecidableEq, Repr

/-- Why the block stops with a fault. -/
inductive Fault where
  /-- Raised by a notice that has passed every check while no slot is FREE (R156: "A FREE slot is there for every notice that reaches this
  step"). Safe: no run from reset reaches it (R148), and the spec gives it no effect (log 12). -/
  | noFreeSlot
  deriving DecidableEq, Repr

/-- Why a command has no meaning. -/
inductive Refusal where
  /-- Raised by `exec` for a command that has no meaning yet; no command is such. Safe. -/
  | notModelled (mnemonic : String)
  deriving DecidableEq, Repr

/-! ### Reset -/

/-- The reset values of the global parameters (spec/11). -/
def Params.reset : Params where
  msDiv := 25000
  encFilter := 3
  encInvert := false
  window := 50
  reverseAllow := 400
  stallTime := 2000
  clearance := 20
  q := 4000
  dEnd := 40000
  armMargin := 64
  auditRate := 6
  rackDebounce := 200
  eyeFilter := 3
  chuteBlockTime := 1500
  chuteClearTime := 1000
  airBudget := 4
  missLimit := 3
  syncTimeout := 200
  linkSilence := 40
  beaconPeriod := 5
  creditMargin := 4
  noticeAge := 6000

/-- R21. -/
def Bpu.reset : Bpu where
  encA := .acquiring
  encB := .acquiring
  position := 0
  hwm := 0
  reverseExcess := false
  errorLevel := 0
  windowTimer := 0
  windowCount := 0
  windowIllegal := false
  v := 0
  stallTimer := 0
  stallRaised := false

/-- R84. -/
def Bank.reset : Bank where
  classes := Vector.replicate 64 { weight := 1, head := none, auditEnable := false, auditHead := none }
  routes := Vector.replicate 256 .stop

/-- R84. -/
def Rd.reset : Rd where
  bank0 := .reset
  bank1 := .reset
  active := false
  planValid := false
  planStatus := none
  sampler := 0x9C5

/-- R86. -/
def OutletFields.reset : OutletFields where
  position := 0
  latency := 40
  trim := 0
  strokeTime := 80
  recoverTime := 60
  homeTimeout := 250
  confirmWindow := 400
  maxSpan := 1600
  lateTolerance := 24
  capacity := 60
  warnLevel := 0
  acceptMask := 0
  level := 8
  holdOnBlock := false

/-- R111, R131. -/
def Outlet.reset : Outlet where
  fields := .reset
  enabled := false
  rack := .absent
  rackKey := none
  fill := 0
  committed := 0
  latest := none
  blocked := false
  missRun := 0
  rackFilter := { accepted := some false, run := false, count := 0 }
  eyeFilter := .acquiring
  blockTimer := 0
  clearTimer := 0
  buttonFilter := .acquiring
  paddle := .idle
  homeFilter := .acquiring
  strokeTimer := 0
  recoverTimer := 0
  strokeFigure := 0
  recoverFigure := 0
  homeFigure := 0
  request := none
  strokeSet := none
  confirmTimer := 0
  windowFigure := 0

/-- R160. -/
def Ilc.reset : Ilc where
  link := .offline
  rx := .idle
  assembler := .hunt
  badRun := 0
  silence := 0
  syncTimer := 0
  syncFrames := 0
  beaconTimer := 0
  tx := .idle
  e := 0
  l := 0

/-- R180. -/
def Sp.reset : Sp where
  requestBuffer := []
  response := none
  ready := false
  resetHold := false
  miso := []

/-- Tallies of 0 (R199). -/
def KeyTally.zero : KeyTally := { delivered := 0, ended := 0, withdrawn := 0, lost := 0, racks := 0 }

/-- Tallies of 0 (R199). -/
def OutletTally.zero : OutletTally :=
  { items := 0, units := 0, strokes := 0, misses := 0, abandoned := 0, strays := 0, racks := 0 }

/-- Tallies of 0 (R199). -/
def DeviceTally.zero : DeviceTally :=
  { badFrames := 0, outOfOrder := 0, overruns := 0, refused := 0, stale := 0, gapTotal := 0, unmatched := 0, planChecks := 0,
    trackLosses := 0, encoderFaults := 0 }

/-- R199, R204. -/
def Tau.reset : Tau where
  keys := Vector.replicate 16 .zero
  outlets := Vector.replicate 16 .zero
  device := .zero
  latches := 0
  enables := 0
  lineMap := 0

/-- Every line low (log 15). -/
def LineSample.low : LineSample :=
  { driveOn := false, home := 0, eye := 0, rack := 0, swap := 0, keys := Vector.replicate 16 0 }

/-- The block right after power-on reset (R21, R53, R84, R111, R131, R160, R162, R180, R199, R204), SP_CS_N released. -/
def State.reset : State where
  params := .reset
  time := { divider := 0 }
  bpu := .reset
  tc := { records := [], gens := Vector.replicate 256 0 }
  rd := .reset
  oc := { lampCycle := 0 }
  outlets := Vector.replicate 16 .reset
  aa := { slotsInUse := 0 }
  ilc := .reset
  sp := .reset
  service := .standby
  tau := .reset
  pins := { encA := false, encB := false, lines := LineSample.low }
  due := []
  freeNext := 0
  pending := []

end Sys2Proof.Machine
end

