-- ==== Sys2Proof/Machine/Ops.lean ====
section
/-! DEFINITION. The named operations over State that the meanings share: positions, outlets, tallies, attention, track records and their
retirement, carrying and clusters. -/

namespace Sys2Proof.Machine

/-- The outcome of a command. -/
abbrev Outcome := Host.Outcome State Fault Refusal

/-! ### Positions (spec/00, Positions and the half-range rule) -/

/-- `a` is at or beyond `b`. -/
def atOrBeyond (a b : Pos) : Bool := (a - b).toNat < 8388608

/-- The distance from `b` forward to `a`, modulo 2^24. -/
def ahead (a b : Pos) : Nat := (a - b).toNat

/-- A position a number of ticks further on. -/
def plus (p : Pos) (d : Nat) : Pos := p + BitVec.ofNat 24 d

/-- A value brought to the nearest limit of its range (spec/00, Clamping and refusal). -/
def clamp (lo hi x : Nat) : Nat := max lo (min hi x)

/-! ### Indexed tables -/

/-- Entry `i` of a table. -/
def vget {α : Type} {n : Nat} (v : Vector α n) (i : Fin n) : α := v[i.val]

/-- A table with entry `i` replaced. -/
def vset {α : Type} {n : Nat} (v : Vector α n) (i : Fin n) (x : α) : Vector α n := v.set i.val x

/-- The outlet numbers, lowest first. -/
def outletNos : List OutletNo := [0, 1, 2, 3, 4, 5, 6, 7, 8, 9, 10, 11, 12, 13, 14, 15]

/-- One outlet's state. -/
def State.outlet (s : State) (o : OutletNo) : Outlet := vget s.outlets o

/-- Replace one outlet's state. -/
def State.setOutlet (s : State) (o : OutletNo) (x : Outlet) : State := { s with outlets := vset s.outlets o x }

/-- Change one outlet's state. -/
def State.modOutlet (s : State) (o : OutletNo) (f : Outlet → Outlet) : State := s.setOutlet o (f (s.outlet o))

/-- Change every outlet's state. -/
def State.mapOutlets (s : State) (f : OutletNo → Outlet → Outlet) : State :=
  { s with outlets := outletNos.foldl (fun v o => vset v o (f o (vget v o))) s.outlets }

/-! ### Attention and tallies (spec/09) -/

/-- The attention sources, in the order of their bits (spec/11). -/
inductive Source where
  | rack | outlet | belt | link | intake | pressure | plan | failsafe
  deriving DecidableEq, Repr

/-- The bit of a source in an attention byte (spec/11). -/
def Source.bit : Source → BitVec 8
  | .rack => 0x01
  | .outlet => 0x02
  | .belt => 0x04
  | .link => 0x08
  | .intake => 0x10
  | .pressure => 0x20
  | .plan => 0x40
  | .failsafe => 0x80

/-- A raising of a source sets its latch (R200). -/
def State.raise (s : State) (src : Source) : State := { s with tau := { s.tau with latches := s.tau.latches ||| src.bit } }

/-- Raise a source when the condition holds. -/
def State.raiseIf (s : State) (c : Bool) (src : Source) : State := if c then s.raise src else s

/-- An increment of a tally: saturating at 16,777,215 (R195). -/
def bump (amount tally : Nat) : Nat := min 16777215 (tally + amount)

/-- The tallies of a key (R196). -/
inductive KeyCount where
  | delivered | ended | withdrawn | lost | racks
  deriving DecidableEq, Repr

/-- One tally of a key increased. -/
def KeyTally.add (t : KeyTally) (n : Nat) : KeyCount → KeyTally
  | .delivered => { t with delivered := bump n t.delivered }
  | .ended => { t with ended := bump n t.ended }
  | .withdrawn => { t with withdrawn := bump n t.withdrawn }
  | .lost => { t with lost := bump n t.lost }
  | .racks => { t with racks := bump n t.racks }

/-- The tallies of an outlet (R197). -/
inductive OutletCount where
  | items | units | strokes | misses | abandoned | strays | racks
  deriving DecidableEq, Repr

/-- One tally of an outlet increased. -/
def OutletTally.add (t : OutletTally) (n : Nat) : OutletCount → OutletTally
  | .items => { t with items := bump n t.items }
  | .units => { t with units := bump n t.units }
  | .strokes => { t with strokes := bump n t.strokes }
  | .misses => { t with misses := bump n t.misses }
  | .abandoned => { t with abandoned := bump n t.abandoned }
  | .strays => { t with strays := bump n t.strays }
  | .racks => { t with racks := bump n t.racks }

/-- The device tallies (R198). -/
inductive DeviceCount where
  | badFrames | outOfOrder | overruns | refused | stale | gapTotal | unmatched | planChecks | trackLosses | encoderFaults
  deriving DecidableEq, Repr

/-- One device tally increased. -/
def DeviceTally.add (t : DeviceTally) (n : Nat) : DeviceCount → DeviceTally
  | .badFrames => { t with badFrames := bump n t.badFrames }
  | .outOfOrder => { t with outOfOrder := bump n t.outOfOrder }
  | .overruns => { t with overruns := bump n t.overruns }
  | .refused => { t with refused := bump n t.refused }
  | .stale => { t with stale := bump n t.stale }
  | .gapTotal => { t with gapTotal := bump n t.gapTotal }
  | .unmatched => { t with unmatched := bump n t.unmatched }
  | .planChecks => { t with planChecks := bump n t.planChecks }
  | .trackLosses => { t with trackLosses := bump n t.trackLosses }
  | .encoderFaults => { t with encoderFaults := bump n t.encoderFaults }

/-- Increase a tally of a key. -/
def State.countKey (s : State) (k : KeyNo) (c : KeyCount) : State :=
  { s with tau := { s.tau with keys := vset s.tau.keys k ((vget s.tau.keys k).add 1 c) } }

/-- Increase a tally of an outlet by an amount. -/
def State.countOutlet (s : State) (o : OutletNo) (c : OutletCount) (n : Nat) : State :=
  { s with tau := { s.tau with outlets := vset s.tau.outlets o ((vget s.tau.outlets o).add n c) } }

/-- Increase a device tally by an amount. -/
def State.countDevice (s : State) (c : DeviceCount) (n : Nat) : State :=
  { s with tau := { s.tau with device := s.tau.device.add n c } }

/-! ### Track records: names and lookups -/

/-- A record's tag (R24). -/
def Record.tag (r : Record) : Tag := { slot := r.slot, gen := r.gen }

/-- The tag of the leader of a record's cluster; a lone record is its own leader (spec/03). -/
def Record.leaderTag (r : Record) : Tag :=
  match r.cluster with
  | some (.member t) => t
  | _ => r.tag

/-- The live record a tag names (R24). -/
def State.find (s : State) (t : Tag) : Option Record := s.tc.records.find? (fun r => r.tag == t)

/-- The members of the cluster led by `t`, in belt order. -/
def State.membersOf (s : State) (t : Tag) : List Record := s.tc.records.filter (fun r => r.leaderTag == t)

/-- The live record in a slot: the Track Table's own view (R23). -/
def State.slotRecord (s : State) (i : Slot) : Option Record := s.tc.records.find? (fun r => r.slot == i)

/-- The free record count (R23). -/
def State.freeCount (s : State) : Nat := 256 - s.tc.records.length

/-- The lowest-numbered FREE slot, searched from slot `i` over `fuel` slots (R25). -/
def State.freeSlotFrom (s : State) : Nat → Nat → Option Slot
  | 0, _ => none
  | fuel + 1, i =>
    let slot := Fin.ofNat 256 i
    match s.slotRecord slot with
    | none => some slot
    | some _ => s.freeSlotFrom fuel (i + 1)

/-- The lowest-numbered FREE slot (R25). -/
def State.freeSlot (s : State) : Option Slot := s.freeSlotFrom 256 0

/-- Replace the list of live records. -/
def State.setRecords (s : State) (rs : List Record) : State := { s with tc := { s.tc with records := rs } }

/-- Change every live record that a test picks. -/
def State.mapRecords (s : State) (p : Record → Bool) (f : Record → Record) : State :=
  s.setRecords (s.tc.records.map (fun r => if p r then f r else r))

/-- An entry put into a waypoint order before the first that lies no nearer. -/
def insertByDistance (pos : Pos) (a : Tag × Pos) : List (Tag × Pos) → List (Tag × Pos)
  | [] => [a]
  | b :: rest => if ahead a.2 pos ≤ ahead b.2 pos then a :: b :: rest else b :: insertByDistance pos a rest

/-- The waypoint order (R28): the records that have a waypoint, by the distance of the waypoint ahead of the position. -/
def State.waypointOrder (s : State) : List (Tag × Pos) :=
  (s.tc.records.filterMap (fun r => r.waypoint.map (fun w => (r.tag, w)))).foldr (insertByDistance s.bpu.position) []

/-- The active bank (R55). -/
def Rd.activeBank (r : Rd) : Bank := if r.active then r.bank1 else r.bank0

/-- The staging bank (R55). -/
def Rd.stagingBank (r : Rd) : Bank := if r.active then r.bank0 else r.bank1

/-- Replace the staging bank. -/
def Rd.setStaging (r : Rd) (b : Bank) : Rd := if r.active then { r with bank0 := b } else { r with bank1 := b }

/-- The class entry of the active bank (R55). -/
def State.classEntry (s : State) (c : ClassNo) : ClassEntry := vget s.rd.activeBank.classes c

/-- The decision point of a record: stamp + Q (R32). -/
def State.decisionPoint (s : State) (r : Record) : Pos := plus r.stamp s.params.q

/-- The end point of a record: stamp + length + D_END (R39). -/
def State.endPoint (s : State) (r : Record) : Pos := plus r.stamp (r.length + s.params.dEnd)

/-- distance(T) = min(4,095, floor((V × T + 8W) / (16W))) (R17). -/
def State.distance (s : State) (t : Nat) : Nat :=
  min 4095 ((s.bpu.v * t + 8 * s.params.window) / (16 * s.params.window))

/-! ### Outlet accounting -/

/-- Units given back at an outlet (R39, R81). A CLOSING rack whose committed units reach 0 becomes SWAP_READY and raises RACK, at this
event (R98). -/
def State.release (s : State) (o : OutletNo) (units : Nat) : State :=
  let x := s.outlet o
  let c := x.committed - units
  if x.rack = .closing ∧ c = 0 then (s.setOutlet o { x with committed := c, rack := .swapReady }).raise .rack
  else s.setOutlet o { x with committed := c }

/-- The latest fire point cleared when the named cluster set it (R77). -/
def Outlet.clearLatest (x : Outlet) (leader : Tag) : Outlet :=
  if x.latest.map (·.owner) = some leader then { x with latest := none } else x

/-- The waiting deadline request of the cluster that holds `t`, cancelled (R121). -/
def Outlet.cancelRequest (x : Outlet) (t : Tag) : Outlet :=
  match x.request with
  | some (.deadline members _ _) => if t ∈ members then { x with request := none } else x
  | _ => x

/-- Fill judged after it rose from `old` (R89, R99): an OPEN rack whose fill reaches capacity becomes FULL, and a crossing of the warn
level raises RACK. -/
def State.judgeFill (s : State) (o : OutletNo) (old : Nat) : State :=
  let x := s.outlet o
  let full := x.rack = .opened ∧ x.fields.capacity ≤ x.fill
  let warn := 0 < x.fields.warnLevel ∧ old < x.fields.warnLevel ∧ x.fields.warnLevel ≤ x.fill
  let s := if full then s.setOutlet o { x with rack := .full } else s
  s.raiseIf (decide (full ∨ warn)) .rack

/-! ### Retirement -/

/-- A retirement in DRAINING that leaves the table empty enters STANDBY, and L becomes E (R166). -/
def State.drainCheck (s : State) : State :=
  if s.service = .draining ∧ s.tc.records = [] then { s with service := .standby, ilc := { s.ilc with l := s.ilc.e } } else s

/-- A member of a cluster whose leader is now `lead` and whose members are `n` (R42): the leader holds the count, or no cluster field when it is
alone, and the decision point of a PENDING cluster; every other member points at it. -/
def State.relink (s : State) (lead : Tag) (n : Nat) (m : Record) : Record :=
  if m.tag = lead then
    { m with
      cluster := if n = 1 then none else some (.leader n)
      waypoint := if m.state = .pending then some (s.decisionPoint m) else m.waypoint }
  else { m with cluster := some (.member lead) }

/-- The latest fire point names its cluster by the new leader (R77). -/
def Outlet.renameLatest (x : Outlet) (old lead : Tag) : Outlet :=
  match x.latest with
  | some l => if l.owner = old then { x with latest := some { l with owner := lead } } else x
  | none => x

/-- The members that remain of the cluster of `r`, which has left the table, linked anew (R42): the count falls by 1, and the leadership passes
to the first in belt order if `r` was the leader. The latest fire point keeps naming the cluster (R77). -/
def State.leaveCluster (s : State) (r : Record) : State :=
  match r.cluster, s.membersOf r.leaderTag with
  | none, _ => s
  | _, [] => s
  | some _, first :: rest =>
    let lead := if r.leaderTag = r.tag then first.tag else r.leaderTag
    let t := s.mapRecords (fun m => m.leaderTag == r.leaderTag) (s.relink lead (rest.length + 1))
    match r.route with
    | none => t
    | some route => t.modOutlet route.outlet (fun x => x.renameLatest r.leaderTag lead)

/-- The tally that a retirement counts (R196). -/
def RetireOutcome.count : RetireOutcome → KeyCount
  | .delivered => .delivered
  | .ended => .ended
  | .withdrawn => .withdrawn
  | .lost => .lost

/-- A record leaves the table (R40): its slot is FREE with the generation incremented (R23), its outcome is counted under its key (R196),
its cluster is adjusted (R42), and DRAINING ends on an empty table (R166). -/
def State.retire (s : State) (outcome : RetireOutcome) (t : Tag) : State :=
  match s.find t with
  | none => s
  | some r =>
    let s := { s with tc := { records := s.tc.records.filter (fun x => x.tag != t), gens := vset s.tc.gens r.slot (vget s.tc.gens r.slot + 1) } }
    let s := s.countKey r.key outcome.count
    let s := s.leaveCluster r
    s.drainCheck

/-- Several records retired with one outcome, in order. -/
def State.retireAll (s : State) (outcome : RetireOutcome) (ts : List Tag) : State := ts.foldl (fun s t => s.retire outcome t) s

/-! ### Carrying -/

/-- The units that a record's route holds given back at its outlet (R26, R39, R81). -/
def State.giveBack (s : State) (r : Record) : State :=
  match r.route with
  | some route => s.release route.outlet route.units
  | none => s

/-- A record riding to the belt end (R39). -/
def Record.carried (why : CarryReason) (goal : Pos) (r : Record) : Record :=
  { r with state := .carried, carry := some why, route := none, cluster := none, waypoint := some goal }

/-- One record becomes CARRIED (R39): its units are given back, its route and cluster fields go, its end point becomes its waypoint, and an
end point at or behind the position retires it END at once (R41). -/
def State.carryRecord (s : State) (reason : CarryReason) (t : Tag) : State :=
  match s.find t with
  | none => s
  | some r =>
    let u := (s.giveBack r).mapRecords (fun x => x.tag == t) (Record.carried reason (s.endPoint r))
    if atOrBeyond s.bpu.position (s.endPoint r) then u.retire .ended t else u

/-- A ROUTED or DUE cluster taken off its outlet's books, but for its units: the latest fire point it set is cleared (R77) and its waiting
request is cancelled (R121). -/
def State.detach (s : State) (leader : Tag) : State :=
  match s.membersOf leader with
  | [] => s
  | r :: _ =>
    match r.route with
    | none => s
    | some route =>
      if r.state = .routed ∨ r.state = .due then s.modOutlet route.outlet (fun x => (x.clearLatest leader).cancelRequest leader) else s

/-- Every member of a cluster becomes CARRIED (R39). -/
def State.carryCluster (s : State) (reason : CarryReason) (leader : Tag) : State :=
  let ts := (s.membersOf leader).map (·.tag)
  ts.foldl (fun s t => s.carryRecord reason t) (s.detach leader)

/-! ### Emptying the part of its work -/

/-- Every live record retired LOST as one event (R54), with no other outcome for any of them. -/
def State.loseAll (s : State) : State :=
  let s := s.tc.records.foldl (fun s r =>
    { (s.countKey r.key .lost) with tc := { s.tc with gens := vset s.tc.gens r.slot (vget s.tc.gens r.slot + 1) } }) s
  s.setRecords []

/-- An outlet at a tracking reset or at entry to FAILSAFE (R110, R132). -/
def Outlet.clearWork (x : Outlet) : Outlet :=
  { x with
    committed := 0
    latest := none
    request := none
    strokeSet := none
    rack := if x.rack = .closing then .swapReady else x.rack }

/-- Every outlet's committed units, latest fire point, request and stroke set cleared; each CLOSING rack becomes SWAP_READY and raises
RACK (R110, R132). -/
def State.clearOutlets (s : State) : State :=
  let closing := outletNos.any (fun o => (s.outlet o).rack == .closing)
  (s.mapOutlets (fun _ => Outlet.clearWork)).raiseIf closing .rack

/-- Entry to FAILSAFE (R168), from any other state (R167). -/
def State.enterFailsafe (s : State) : State :=
  if s.service = .failsafe then s
  else
    let s := { s with service := .failsafe }
    let s := s.loseAll.clearOutlets
    { s with ilc := { s.ilc with l := s.ilc.e } }.raise .failsafe

/-- TRACK LOSS is raised: counted in every state (R8, R198), and an entry to FAILSAFE outside it (R167). -/
def State.trackLoss (s : State) : State := (s.countDevice .trackLosses 1).enterFailsafe

/-- ENCODER FAULT is raised (R4, R167, R198). -/
def State.encoderFault (s : State) : State := (s.countDevice .encoderFaults 1).enterFailsafe

/-- The reverse excess evaluated (R8): TRACK LOSS is raised when it is found true and was false. -/
def State.judgeExcess (s : State) : State :=
  let excess := decide (s.params.reverseAllow < ahead s.bpu.hwm s.bpu.position)
  let was := s.bpu.reverseExcess
  let s := { s with bpu := { s.bpu with reverseExcess := excess } }
  if excess && !was then s.trackLoss else s

/-- The HWM is set to the position, which makes the reverse excess false (R9). -/
def State.rebase (s : State) : State := { s with bpu := { s.bpu with hwm := s.bpu.position, reverseExcess := false } }

end Sys2Proof.Machine
end

