-- ==== Sys2Proof/Machine/Walk.lean ====
section
/-! DEFINITION. The Route Decider: the acceptance test, the walk of a route chain, the audit sampler and the reservation (spec/03). -/

namespace Sys2Proof.Machine

/-! ### The acceptance test -/

/-- The weight of a class in the active bank (R71). -/
def State.weight (s : State) (c : ClassNo) : Nat := (s.classEntry c).weight

/-- The weight of a cluster: the sum over its members (R71). -/
def State.clusterWeight (s : State) (ms : List Record) : Nat := (ms.map (fun r => s.weight r.cls)).sum

/-- The span of a cluster whose leader's stamp is `s0`: the largest of (stamp + length − S0) mod 2^24 (R72). -/
def span (s0 : Pos) (ms : List Record) : Nat := ms.foldl (fun acc r => max acc (ahead (plus r.stamp r.length) s0)) 0

/-- The centre offset: floor((span + 1) / 2) (R72). -/
def centre (sp : Nat) : Nat := (sp + 1) / 2

/-- The lead at an outlet: distance(La) (R17, R73). -/
def State.lead (s : State) (o : OutletNo) : Nat := s.distance (s.outlet o).fields.latency

/-- The cycle distance at an outlet: distance(stroke time + recover time) (R17, R73). -/
def State.cycleDistance (s : State) (o : OutletNo) : Nat :=
  s.distance ((s.outlet o).fields.strokeTime + (s.outlet o).fields.recoverTime)

/-- The fire point F = (S0 + D_o + c + trim − lead) mod 2^24 (R73). -/
def State.firePoint (s : State) (o : OutletNo) (s0 : Pos) (ms : List Record) : Pos :=
  let f := (s.outlet o).fields
  BitVec.ofInt 24 ((s0.toNat : Int) + (f.position : Int) + (centre (span s0 ms) : Int) + f.trim - (s.lead o : Int))

/-- An outlet takes no work (R69). -/
def Outlet.notOpen (x : Outlet) : Bool := !x.enabled || x.rack != .opened || x.blocked || x.paddle == .faulted

/-- Two keys are compatible when they are equal or either is 0 (R70). -/
def compatible (a b : KeyNo) : Bool := a == b || a == 0 || b == 0

/-- A rack whose key is absent takes no key; the rack is then ABSENT and refuses NOT_OPEN before this is asked. -/
def Outlet.takesKey (x : Outlet) (k : KeyNo) : Bool :=
  match x.rackKey with
  | some rk => compatible k rk
  | none => false

/-- SPACING holds (R75): there is no latest fire point, or `f` lies at least the cycle distance from it on both sides. -/
def State.spaced (s : State) (o : OutletNo) (f : Pos) : Bool :=
  match (s.outlet o).latest with
  | none => true
  | some l => s.cycleDistance o ≤ min (ahead f l.point) (ahead l.point f)

/-- The acceptance test of one outlet for one cluster (R68): the first of the eight conditions that fails, or the fire point. -/
def State.accept (s : State) (o : OutletNo) (s0 : Pos) (ms : List Record) : Except RefusalReason Pos :=
  let x := s.outlet o
  if x.notOpen then .error .notOpen
  else if s.params.dEnd ≤ x.fields.position then .error .beyondEnd
  else if ms.any (fun r => !x.fields.acceptMask.getLsbD r.cls.val) then .error .cls
  else if ms.any (fun r => !x.takesKey r.key) then .error .key
  else if x.fields.maxSpan < span s0 ms then .error .span
  else if x.fields.capacity < x.fill + x.committed + s.clusterWeight ms then .error .capacity
  else
    let f := s.firePoint o s0 ms
    if !atOrBeyond f s.bpu.position || ahead f s.bpu.position < s.params.armMargin then .error .late
    else if !s.spaced o f then .error .spacing
    else .ok f

/-! ### The walk -/

/-- How a walk ends (R62). -/
inductive WalkEnd where
  | accepted (o : OutletNo) (entry : RouteIx) (firePoint : Pos)
  | chainEnd
  | noChain
  | planCheck (kind : CheckKind) (entry : RouteIx)
  deriving DecidableEq, Repr

/-- The walk from an entry (R64, R65): `fuel` entries may still be examined, `afterJump` says that the entry examined before was a JUMP,
and `last` is the last refusal of the walk so far. Nothing is changed on the way, since a refused test changes nothing (R68). -/
def State.walkFrom (s : State) (s0 : Pos) (ms : List Record) :
    Nat → RouteIx → Bool → Option RefusalReason → WalkEnd × Option RefusalReason
  | 0, i, _, last => (.planCheck .walkLimit i, last)
  | fuel + 1, i, afterJump, last =>
    match vget s.rd.activeBank.routes i with
    | .stop => (.chainEnd, last)
    | .jump target _ => if afterJump then (.planCheck .doubleJump i, last) else s.walkFrom s0 ms fuel target true last
    | .outlet o chain =>
      match s.accept o s0 ms with
      | .ok f => (.accepted o i f, last)
      | .error why =>
        if !chain then (.chainEnd, some why)
        else if i = 255 then (.planCheck .pastEnd 255, some why)
        else s.walkFrom s0 ms fuel (i + 1) false (some why)

/-- A whole walk from its start index, 16 entries at most (R63, R64). -/
def State.walkChain (s : State) (s0 : Pos) (ms : List Record) (start : Option RouteIx) : WalkEnd × Option RefusalReason :=
  match start with
  | none => (.noChain, none)
  | some i => s.walkFrom s0 ms 16 i false none

/-! ### The audit sampler -/

/-- One advance of the audit sampler (R78). -/
def advanceSampler (v : BitVec 12) : BitVec 12 :=
  let f := v.getLsbD 11 ^^ v.getLsbD 10 ^^ v.getLsbD 9 ^^ v.getLsbD 3
  let w := (v <<< 1) + (if f then 1 else 0)
  if w = 0 then 1 else w

/-- The sampler selects when its AUDIT_RATE lowest bits are all 0 (R79). -/
def selects (rate : Nat) (v : BitVec 12) : Bool := v.toNat % 2 ^ rate == 0

/-! ### Results -/

/-- The reservation at an accepting outlet (R76). -/
def State.reserve (s : State) (o : OutletNo) (units : Nat) (f : Pos) (leader : Tag) : State :=
  s.modOutlet o (fun x => { x with committed := x.committed + units, latest := some { point := f, owner := leader } })

/-- Every member of a cluster ROUTED, with its own units in its route (R37). -/
def State.routeCluster (s : State) (leader : Tag) (o : OutletNo) (entry : RouteIx) (f : Pos) : State :=
  s.mapRecords (fun r => r.leaderTag == leader) (fun r =>
    { r with state := .routed, route := some { outlet := o, entry := entry, firePoint := f, units := s.weight r.cls }, waypoint := some f })

/-- A plan check at an entry (R66): PLAN is raised and counted, and the check is recorded when the plan status is empty. -/
def State.planCheck (s : State) (c : ClassNo) (kind : CheckKind) (entry : RouteIx) : State :=
  let s := (s.raise .plan).countDevice .planChecks 1
  match s.rd.planStatus with
  | none => { s with rd := { s.rd with planStatus := some { cls := c, entry := entry, kind := kind } } }
  | some _ => s

/-- What starts a walk (spec/03, The route walk). -/
inductive WalkKind where
  | decision | reroute | amendment
  deriving DecidableEq, Repr

/-- The sampler at the start of a walk, and whether the walk selects its cluster for audit (R78, R79). -/
def State.sampleAudit (s : State) (kind : WalkKind) (ce : ClassEntry) : BitVec 12 × Bool :=
  if kind = .decision ∧ ce.auditEnable = true then
    let v := advanceSampler s.rd.sampler
    (v, selects s.params.auditRate v)
  else (s.rd.sampler, false)

/-- The result of a walk written into the records and the outlet (R37, R39, R62, R66, R76). -/
def State.applyWalk (s : State) (leader : Tag) (c : ClassNo) : WalkEnd → State
  | .accepted o entry f => (s.reserve o (s.clusterWeight (s.membersOf leader)) f leader).routeCluster leader o entry f
  | .chainEnd => s.carryCluster .chainEnd leader
  | .noChain => s.carryCluster .noChain leader
  | .planCheck kind entry => (s.planCheck c kind entry).carryCluster .planCheck leader

/-- A record after the walk of its cluster, before the result is written: its last refusal, and AUDIT when the walk selected the cluster
(R26, R27, R79). -/
def Record.walked (last : Option RefusalReason) (audit : Bool) (r : Record) : Record :=
  { r with lastRefusal := last, waypoint := none, flags := { r.flags with audit := r.flags.audit || audit } }

/-- One walk for the cluster led by `leader`, whose members hold no route (R62, R63). -/
def State.walk (s : State) (kind : WalkKind) (leader : Tag) : State :=
  match s.find leader with
  | none => s
  | some lead =>
    let ce := s.classEntry lead.cls
    let (sampler, picked) := s.sampleAudit kind ce
    let audited := (picked || (kind != .decision && lead.flags.audit)) && ce.auditHead.isSome
    let start := if audited then ce.auditHead else ce.head
    let (result, last) := s.walkChain lead.stamp (s.membersOf leader) start
    let s := { s with rd := { s.rd with sampler := sampler } }
    let s := s.mapRecords (fun r => r.leaderTag == leader) (Record.walked last (picked && ce.auditHead.isSome))
    s.applyWalk leader lead.cls result

/-! ### Re-routes and amendment walks -/

/-- A record whose route is taken back before a walk (R45, R81). -/
def Record.unrouted (mark : Flags → Flags) (r : Record) : Record :=
  { r with state := .pending, route := none, waypoint := none, flags := mark r.flags }

/-- A ROUTED or DUE cluster taken back from its outlet: the latest fire point it set and its waiting request go, every member's units are
given back, and every member is without a route (R45, R81). `mark` changes the flags. -/
def State.withdrawRoute (s : State) (leader : Tag) (mark : Flags → Flags) : State :=
  let ms := s.membersOf leader
  let s := s.detach leader
  let s := ms.foldl State.giveBack s
  s.mapRecords (fun r => r.leaderTag == leader) (Record.unrouted mark)

/-- One cluster re-routed (R81). -/
def State.reroute (s : State) (leader : Tag) : State :=
  (s.withdrawRoute leader (fun f => { f with rerouted := true })).walk .reroute leader

/-- A record is ROUTED or DUE at an outlet. -/
def Record.waitsAt (r : Record) (o : OutletNo) : Bool :=
  (r.state == .routed || r.state == .due) && r.route.map (·.outlet) == some o

/-- The leaders of the ROUTED and DUE clusters at an outlet, in belt order of their first members (R82). -/
def State.clustersAt (s : State) (o : OutletNo) : List Tag :=
  ((s.tc.records.filter (fun r => r.waitsAt o)).map (·.leaderTag)).eraseDups

/-- Loss of acceptance at an outlet: every ROUTED and DUE cluster there is re-routed, oldest first, as one event (R82, R106). -/
def State.loseAcceptance (s : State) (o : OutletNo) : State :=
  (s.clustersAt o).foldl (fun s t => if (s.membersOf t).any (fun r => r.waitsAt o) then s.reroute t else s) s

/-- The decision point of a PENDING leader acted on: the waypoint is removed and the cluster is handed to a decision walk (R29). -/
def State.decisionWalk (s : State) (leader : Tag) : State := s.walk .decision leader

/-- The decision point of a PENDING leader acted on at once when the position is at or beyond it (R19). -/
def State.decideIfReached (s : State) (leader : Tag) : State :=
  match s.find leader with
  | some r =>
    match r.waypoint with
    | some w => if r.state = .pending ∧ atOrBeyond s.bpu.position w then s.decisionWalk leader else s
    | none => s
  | none => s

end Sys2Proof.Machine
end

