-- ==== Sys2Proof/Machine/Track.lean ====
section
/-! DEFINITION. The Track Controller: creating a record, clusters, amendment and withdrawal (spec/02). -/

namespace Sys2Proof.Machine

/-! ### Creation and clusters -/

/-- Two records overlap (R33). -/
def overlaps (clearance : Nat) (x y : Record) : Bool :=
  if atOrBeyond y.stamp x.stamp then ahead y.stamp x.stamp < x.length + clearance
  else ahead x.stamp y.stamp < y.length + clearance

/-- A record put into the belt-order list: after every record whose stamp is at or before its own (R31). -/
def insertByStamp (r : Record) : List Record → List Record
  | [] => [r]
  | x :: xs => if atOrBeyond r.stamp x.stamp then x :: insertByStamp r xs else r :: x :: xs

/-- The merged set but for the new record, in belt order: every record it overlaps and every member of their clusters (R34). -/
def State.mergedSet (s : State) (r : Record) : List Record :=
  let hit := s.tc.records.filter (fun x => overlaps s.params.clearance x r)
  s.tc.records.filter (fun x => hit.any (fun h => h.leaderTag == x.leaderTag))

/-- The length of a notice as a record keeps it: 0 becomes 1, and above 4,095 becomes 4,095 (R32). -/
def recordLength (length : BitVec 16) : Nat := clamp 1 4095 length.toNat

/-- A new record (R27, R32). -/
def newRecord (slot : Slot) (gen : BitVec 4) (number : Byte) (stamp : Pos) (length : BitVec 16) (cls : ClassNo) (key : KeyNo)
    (clamped : Bool) : Record where
  slot := slot
  gen := gen
  number := number
  stamp := stamp
  length := recordLength length
  cls := cls
  key := key
  state := .pending
  flags := { audit := false, amended := false, stampClamped := clamped, rerouted := false }
  cluster := none
  route := none
  lastRefusal := none
  carry := none
  waypoint := none

/-- Every record of a merged set, the new record among them, linked as one PENDING cluster led by its first member in belt order, which holds
the decision point (R35). -/
def State.linkCluster (s : State) (members : List Tag) : State :=
  match s.tc.records.find? (fun r => members.contains r.tag) with
  | none => s
  | some lead =>
    s.mapRecords (fun r => members.contains r.tag) (fun r =>
      if r.tag = lead.tag then { r with cluster := some (.leader members.length), waypoint := some (s.decisionPoint r) }
      else { r with cluster := some (.member lead.tag), waypoint := none })

/-- Every PENDING, ROUTED or DUE record of a merged set becomes CARRIED, cluster by cluster in belt order (R36). -/
def State.carryOverlap (s : State) (reason : CarryReason) (members : List Tag) : State :=
  members.foldl (fun s t =>
    match s.find t with
    | some r => if r.state = .fired ∨ r.state = .carried then s else s.carryCluster reason r.leaderTag
    | none => s) s

/-- The new record `r` put in the belt-order list and grouped with what it overlaps (R32 to R36). -/
def State.enterRecord (s : State) (r : Record) : State :=
  let m := s.mergedSet r
  let s := s.setRecords (insertByStamp r s.tc.records)
  if m.isEmpty then
    (s.mapRecords (fun x => x.tag == r.tag) (fun x => { x with waypoint := some (s.decisionPoint x) })).decideIfReached r.tag
  else
    let tags := (s.tc.records.filter (fun x => x.tag == r.tag || m.any (fun y => y.tag == x.tag))).map (·.tag)
    if m.all (fun x => x.state == .pending) && m.length < 8 then
      let s := s.linkCluster tags
      match tags.head? with
      | some lead => s.decideIfReached lead
      | none => s
    else
      let reason := if m.any (fun x => x.state != .pending) then CarryReason.overlapLate else .clusterLimit
      s.carryOverlap reason tags

/-- A record created from an accepted notice, in the lowest FREE slot (R25, R32); with no FREE slot the block stops (log 12). -/
def State.create (s : State) (number : Byte) (stamp : Pos) (length : BitVec 16) (cls : ClassNo) (key : KeyNo) (clamped : Bool) : Outcome :=
  match s.freeSlot with
  | none => .fault .noFreeSlot
  | some slot => .next (s.enterRecord (newRecord slot (vget s.tc.gens slot) number stamp length cls key clamped))

/-! ### Amendment -/

/-- What an amendment writes: the selected fields and AMENDED (R27, R44). -/
structure Amendment where
  cls : Option ClassNo
  key : Option KeyNo
  deriving DecidableEq, Repr

/-- The amended record. -/
def Amendment.apply (a : Amendment) (r : Record) : Record :=
  { r with cls := a.cls.getD r.cls, key := a.key.getD r.key, flags := { r.flags with amended := true } }

/-- A fire point is far enough ahead to be amended: at or beyond the position and not less than ARM_MARGIN ahead (R45). -/
def State.canAmend (s : State) (f : Pos) : Bool := atOrBeyond f s.bpu.position && s.params.armMargin ≤ ahead f s.bpu.position

/-- An amendment of a live record, judged by its state (R44, R45, R46, R83); `none` is a refusal as too late. -/
def State.amend (s : State) (r : Record) (a : Amendment) : Option State :=
  let write (s : State) : State := s.mapRecords (fun x => x.tag == r.tag) a.apply
  match r.state, r.route with
  | .pending, _ => some (write s)
  | .carried, _ => some (write s)
  | .routed, some route =>
    if s.canAmend route.firePoint then some ((write (s.withdrawRoute r.leaderTag id)).walk .amendment r.leaderTag) else none
  | _, _ => none

/-! ### Withdrawal -/

/-- A waiting deadline request without one member (R121): the request stays while members remain, and is cancelled with the last. -/
def Outlet.dropMember (x : Outlet) (t : Tag) (units : Nat) : Outlet :=
  match x.request with
  | some (.deadline members late u) =>
    if t ∈ members then
      let left := members.filter (fun m => m != t)
      { x with request := if left.isEmpty then none else some (.deadline left late (u - units)) }
    else x
  | _ => x

/-- A record withdrawn (R47, R48); `none` is a refusal TOO_LATE of a FIRED record (R49). -/
def State.withdraw (s : State) (r : Record) : Option State :=
  let rest := (s.membersOf r.leaderTag).filter (fun x => x.tag != r.tag)
  match r.state, r.route with
  | .fired, _ => none
  | .carried, _ => some (s.retire .withdrawn r.tag)
  | .routed, some route | .due, some route =>
    let s := s.modOutlet route.outlet (fun x =>
      let x := x.dropMember r.tag route.units
      if rest.isEmpty then x.clearLatest r.leaderTag else x)
    some ((s.release route.outlet route.units).retire .withdrawn r.tag)
  | _, _ =>
    let s := s.retire .withdrawn r.tag
    match rest with
    | first :: _ => some (if r.leaderTag = r.tag then s.decideIfReached first.tag else s)
    | [] => some s

end Sys2Proof.Machine
end

