-- ==== Sys2Proof/Machine/Intake.lean ====
section
/-! DEFINITION. The Intake Link Controller: beacons and credit, the link states, the six checks of a notice, revisions, the frame assembler and the receive line
(spec/06). -/

namespace Sys2Proof.Machine

/-! ### Beacons and credit -/

/-- The allowance in SERVING with the link ACTIVE: min(max(free records − CREDIT_MARGIN, 0), 127) (R148). -/
def State.allowance (s : State) : Nat := min (s.freeCount - s.params.creditMargin) 127

/-- The credit outstanding, (L − E) mod 256 (R148). -/
def State.credit (s : State) : Nat := (s.ilc.l - s.ilc.e).toNat

/-- A beacon handed to the transmitter: sent at once when it is idle, and otherwise waiting in place of any that waits (R147). -/
def Transmitter.hand (t : Transmitter) (bytes : List Byte) : Transmitter :=
  match t with
  | .idle => .sending bytes none
  | .sending now _ => .sending now (some bytes)

/-- A beacon composed (R147, R148): L is computed afresh, PRESSURE is raised at an allowance of 0, and the beacon timer starts again. -/
def State.composeBeacon (s : State) : State :=
  let granting := s.service = .serving ∧ s.ilc.link = .active
  let l := if granting then s.ilc.e + BitVec.ofNat 8 s.allowance else s.ilc.e
  let s := s.raiseIf (decide (granting ∧ s.allowance = 0)) .pressure
  { s with ilc := { s.ilc with l := l, beaconTimer := 0, tx := s.ilc.tx.hand (beaconFrame s.bpu.position l) } }

/-- A beacon that waits is discarded; one being sent completes (R146, R161). -/
def Transmitter.dropWaiting : Transmitter → Transmitter
  | .idle => .idle
  | .sending now _ => .sending now none

/-! ### Link states -/

/-- The link goes OFFLINE (R146). -/
def State.goOffline (s : State) : State :=
  { s with ilc := { s.ilc with link := .offline, assembler := .hunt, l := s.ilc.e, beaconTimer := 0, tx := s.ilc.tx.dropWaiting } }

/-- An ACTIVE link is lost (R144, R145): OFFLINE, and LINK is raised. -/
def State.loseLink (s : State) : State := s.goOffline.raise .link

/-- Entry to SYNCING, and a synchronisation restarted (R140, R142, R143): E and L are 0 and a beacon is composed at once. -/
def State.enterSyncing (s : State) : State :=
  { s with ilc := { s.ilc with link := .syncing, e := 0, l := 0, syncTimer := 0, syncFrames := 0, beaconTimer := 0 } }.composeBeacon

/-- A sync frame: the second takes the link to ACTIVE (R141). -/
def State.syncFrame (s : State) : State :=
  let n := s.ilc.syncFrames + 1
  { s with ilc := { s.ilc with syncFrames := n, link := if 2 ≤ n then .active else s.ilc.link } }

/-- What every valid frame does first, in every link state (R139): the assembler hunts again and the two counts are 0. -/
def State.validFrame (s : State) : State :=
  { s with ilc := { s.ilc with assembler := .hunt, silence := 0, badRun := 0 } }

/-- A bad frame (R138): dropped and counted; the fourth in a row loses an ACTIVE link (R145). -/
def State.badFrame (s : State) : State :=
  let s := s.countDevice .badFrames 1
  let n := min 4 (s.ilc.badRun + 1)
  let s := { s with ilc := { s.ilc with assembler := .hunt, badRun := n } }
  if n = 4 ∧ s.ilc.link = .active then s.loseLink else s

/-- A byte error (R138): it ends a frame in progress as a bad frame, and ends nothing in HUNT. Where a timeout taken just before it has discarded the frame,
nothing is in progress and nothing is counted (R146; log 31). -/
def State.byteError (s : State) : State := if s.ilc.assembler = .hunt then s else s.badFrame

/-! ### Frames -/

/-- A JOIN whose CRC is right: bad unless its protocol level is 1 (R137), and otherwise a (re)start of the synchronisation (R139, R140, R142, R143). -/
def State.takeJoin (s : State) (level : Byte) : State := if level = 1 then s.validFrame.enterSyncing else s.badFrame

/-- A valid KEEPALIVE (R139, R141, R143). -/
def State.takeKeepalive (s : State) : State :=
  let s := s.validFrame
  if s.ilc.link = .syncing then s.syncFrame else s

/-- The six checks on a notice in ACTIVE, in their order (R150 to R156). After an entry to FAILSAFE, which sets L to E, check 2 finds an overrun where R154
speaks of a refusal (log 30). -/
def State.judgeNotice (s : State) (n : Byte) (stamp : Pos) (length : BitVec 16) (cls : ClassNo) (key : KeyNo) : Outcome :=
  if 128 ≤ (n - s.ilc.e).toNat then .next (s.countDevice .outOfOrder 1)
  else if (s.ilc.l - n).toNat < 1 ∨ 128 < (s.ilc.l - n).toNat then .next ((s.countDevice .overruns 1).raise .intake)
  else
    let gap := (n - s.ilc.e).toNat
    let s := if gap = 0 then s else (s.countDevice .gapTotal gap).raise .intake
    let s := { s with ilc := { s.ilc with e := n + 1 } }
    if s.service ≠ .serving then .next (s.countDevice .refused 1)
    else
      let pos := s.bpu.position
      let beyond := atOrBeyond stamp pos && stamp != pos
      let stamp := if beyond then pos else stamp
      if s.params.noticeAge < ahead pos stamp then .next ((s.countDevice .stale 1).raise .intake)
      else s.create n stamp length cls key beyond

/-- A valid NOTICE (R139, R141, R150). -/
def State.takeNotice (s : State) (n : Byte) (stamp : Pos) (length : BitVec 16) (cls : ClassNo) (key : KeyNo) : Outcome :=
  let s := s.validFrame
  match s.ilc.link with
  | .offline => .next s
  | .syncing => .next ((s.countDevice .refused 1).syncFrame)
  | .active => s.judgeNotice n stamp length cls key

/-- A REVISE in ACTIVE (R157): unmatched when it selects nothing or finds no record of its number, newest first; otherwise an amendment, and
one refused as too late changes nothing. -/
def State.judgeRevise (s : State) (n : Byte) (selClass selKey : Bool) (cls : ClassNo) (key : KeyNo) : State :=
  if !selClass && !selKey then s.countDevice .unmatched 1
  else
    match s.tc.records.reverse.find? (fun r => r.number == n) with
    | none => s.countDevice .unmatched 1
    | some r => (s.amend r { cls := if selClass then some cls else none, key := if selKey then some key else none }).getD s

/-- A valid REVISE (R139, R141, R157). -/
def State.takeRevise (s : State) (n : Byte) (selClass selKey : Bool) (cls : ClassNo) (key : KeyNo) : State :=
  let s := s.validFrame
  match s.ilc.link with
  | .offline => s
  | .syncing => (s.countDevice .refused 1).syncFrame
  | .active => s.judgeRevise n selClass selKey cls key

/-- A frame whose CRC is right, taken by its kind (R137, R139). -/
def State.takeFrame (s : State) (frame : Instr) : Outcome :=
  match frame with
  | .join level => .next (s.takeJoin level)
  | .keepalive => .next s.takeKeepalive
  | .notice n stamp length cls key => s.takeNotice n stamp length cls key
  | .revise n sc sk cls key => .next (s.takeRevise n sc sk cls key)
  | _ => .next s.badFrame

/-! ### The frame assembler -/

/-- A received byte in the assembler's state (R137), with the two judgements of a frame. Where a timeout taken just before it has discarded the frame whose last
byte it is, it is a byte in HUNT (R146; log 31). -/
def State.takeByte (s : State) (b : Byte) : Outcome :=
  let keep (a : Assembler) : Outcome := .next { s with ilc := { s.ilc with assembler := a } }
  match s.ilc.assembler with
  | .hunt => if b = startByte then keep .type else .next s
  | .type => keep (.length b)
  | .length type =>
    if payloadLength type = some b.toNat then keep (if b.toNat = 0 then .check type [] else .payload type b.toNat [])
    else .next s.badFrame
  | .payload type left got => keep (if left ≤ 1 then .check type (got ++ [b]) else .payload type (left - 1) (got ++ [b]))
  | .check type got =>
    if b = crc8 (type :: BitVec.ofNat 8 got.length :: got) then
      match decodeIntake type got with
      | some frame => s.takeFrame frame
      | none => .next s.badFrame
    else .next s.badFrame

/-! ### The receive line -/

/-- What a bit time of the receive line completes (R134). -/
inductive RxTaken where
  | nothing
  | received (b : Byte)
  | error
  deriving DecidableEq, Repr

/-- One bit time of LINK_RX (R134): the start level begins a byte on an idle line; eight data bits follow, the least significant first; and the level
in the middle of the stop bit makes the byte received or a byte error, after which the line is idle. -/
def RxLine.take (level : Bool) : RxLine → RxLine × RxTaken
  | .idle => (if level then .idle else .byte [], .nothing)
  | .byte bits =>
    if bits.length < 8 then (.byte (bits ++ [level]), .nothing)
    else (.idle, if level then .received (byteOfBits bits) else .error)

/-- The receive line as it stands. -/
def State.setRx (s : State) (rx : RxLine) : State := { s with ilc := { s.ilc with rx := rx } }

/-- The bit times of LINK_RX one after another, up to the one that completes a byte: the byte, or the byte error, goes to the frame assembler (R134).
One command brings one byte at most, so what follows that bit time is not read (log 7). -/
def State.takeLevels (s : State) : List Bool → Outcome
  | [] => .next s
  | level :: rest =>
    match s.ilc.rx.take level with
    | (rx, .nothing) => (s.setRx rx).takeLevels rest
    | (rx, .received b) => (s.setRx rx).takeByte b
    | (rx, .error) => .next (s.setRx rx).byteError

end Sys2Proof.Machine
end

