-- ==== Sys2Proof/Machine/Link.lean ====
section
/-! DEFINITION. The commands of the intake link (spec/06). A frame command is a valid frame taken at the receipt of its CRC byte, and BAD_FRAME the byte
that ends a frame bad: the last byte is whole, so the receive line is idle after it (R134, log 6). -/

namespace Sys2Proof.Machine

/-- BAD_FRAME (R138). -/
def execBadFrame (cause : BadCause) (s : State) : Outcome :=
  match cause with
  | .atLength => .next (s.setRx .idle).badFrame
  | .atCrc => .next (s.setRx .idle).badFrame
  | .byteError => .next (s.setRx .idle).byteError

/-- JOIN (R140). -/
def execJoin (level : Byte) (s : State) : Outcome := .next ((s.setRx .idle).takeJoin level)

/-- KEEPALIVE (R139). -/
def execKeepalive (s : State) : Outcome := .next (s.setRx .idle).takeKeepalive

/-- NOTICE (R150). -/
def execNotice (number : Byte) (stamp : Pos) (length : BitVec 16) (cls : ClassNo) (key : KeyNo) (s : State) : Outcome :=
  (s.setRx .idle).takeNotice number stamp length cls key

/-- REVISE (R157). -/
def execRevise (number : Byte) (selClass selKey : Bool) (cls : ClassNo) (key : KeyNo) (s : State) : Outcome :=
  .next ((s.setRx .idle).takeRevise number selClass selKey cls key)

/-- BEACON_TRANSMIT_DONE (R147): the beacon that waits begins sending, or the transmitter is idle. -/
def execBeaconTransmitDone (s : State) : Outcome :=
  match s.ilc.tx with
  | .sending _ (some next) => .next { s with ilc := { s.ilc with tx := .sending next none } }
  | .sending _ none => .next { s with ilc := { s.ilc with tx := .idle } }
  | .idle => .next s

/-- RECEIVED_BYTE (R134, R137). -/
def execReceivedByte (levels : List Bool) (s : State) : Outcome := s.takeLevels levels

end Sys2Proof.Machine
end

