-- ==== Sys2Proof/Machine/Flags.lean ====
section
/-! DEFINITION. The output lines and the lamps, judged from the state they follow (R107, R108, R112, R134, R202), and the sample filter that every
input line shares (R1, R92, R96, R101, R112). -/

namespace Sys2Proof.Machine

/-! ### The sample filter -/

/-- One sample of a line. In acquisition the first `n` consecutive equal samples set the accepted level (R2, R96, R101, R112); after it, a sample
equal to the accepted level sets the count to 0 and one that differs adds 1 (R1, R92). -/
def Filter.sample (n : Nat) (x : Bool) (f : Filter) : Filter :=
  match f.accepted with
  | none =>
    let c := if f.run = x ∧ f.count ≠ 0 then f.count + 1 else 1
    if n ≤ c then { accepted := some x, run := x, count := 0 } else { f with run := x, count := c }
  | some a => if x = a then { f with count := 0 } else { f with count := f.count + 1 }

/-- The count of differing samples has reached the filter's length. -/
def Filter.reached (n : Nat) (f : Filter) : Bool := f.accepted.isSome && n ≤ f.count

/-- A level accepted: the count is 0. -/
def Filter.accept (x : Bool) (f : Filter) : Filter := { f with accepted := some x, count := 0 }

/-- One sample and, when the count reaches the length, the acceptance of the sampled level (R1). -/
def Filter.sampleAccept (n : Nat) (x : Bool) (f : Filter) : Filter :=
  let g := f.sample n x
  if g.reached n then g.accept x else g

/-! ### Outputs -/

/-- FIRE of an outlet: asserted while its paddle is in STROKE (R112). -/
def State.fire (s : State) (o : OutletNo) : Bool := (s.outlet o).paddle == .stroke

/-- The lamp pattern of an outlet: the first row of R107's table that holds. -/
def Outlet.lamp (x : Outlet) : Lamp :=
  if x.paddle = .faulted ∨ x.blocked = true then .fast
  else if x.rack = .swapReady then .steady
  else if x.rack = .full ∨ x.rack = .closing ∨ (0 < x.fields.warnLevel ∧ x.fields.warnLevel ≤ x.fill) then .slow
  else .off

/-- The LAMP output of an outlet at its place in the shared lamp cycle (R107). -/
def State.lampLit (s : State) (o : OutletNo) : Bool :=
  match (s.outlet o).lamp with
  | .off => false
  | .steady => true
  | .slow => s.oc.lampCycle < 500
  | .fast => s.oc.lampCycle % 250 < 125

/-- HOLD: asserted in FAILSAFE, and while an ENABLED outlet with hold-on-block set has its chute BLOCKED (R108). -/
def State.hold (s : State) : Bool :=
  s.service == .failsafe || outletNos.any (fun o => (s.outlet o).enabled && (s.outlet o).fields.holdOnBlock && (s.outlet o).blocked)

/-- ATTN_A: asserted while an enabled source mapped to A has its latch set (R202). -/
def State.attnA (s : State) : Bool := s.tau.latches &&& s.tau.enables &&& ~~~s.tau.lineMap != 0

/-- ATTN_B: asserted while an enabled source mapped to B has its latch set (R202). -/
def State.attnB (s : State) : Bool := s.tau.latches &&& s.tau.enables &&& s.tau.lineMap != 0

/-- Byte `i` that SP_MISO carries in the last transaction; all ones beyond what was driven (R175, R179). -/
def State.misoByte (s : State) (i : Nat) : Byte := s.sp.miso.getD i 0xFF

/-- The levels that LINK_TX takes, bit time by bit time, from the first bit of the beacon being sent to the last of the one that waits (R134, R147):
the bytes back to back. Nothing when the transmitter is idle. -/
def Transmitter.levels : Transmitter → List Bool
  | .idle => []
  | .sending now waiting => (now ++ waiting.getD []).flatMap byteLevels

/-- LINK_TX in bit time `i` from the first bit of the beacon being sent; the line rests at the stop level when nothing is sent (R134). How far the
sending has gone is timing (log 7). -/
def State.linkTx (s : State) (i : Nat) : Bool := s.ilc.tx.levels.getD i true

/-- The belt state: RUNNING while V is above 0 (R15). -/
def State.beltRunning (s : State) : Bool := decide (0 < s.bpu.v)

end Sys2Proof.Machine
end

