-- ==== Sys2Proof/Machine/Paddle.lean ====
section
/-! DEFINITION. The paddle sequencers and the Air Arbiter: fire requests, grants, stroke sets, misses and paddle faults (spec/05), and the
confirm and the stray passage at the rack (R100, R103). -/

namespace Sys2Proof.Machine

/-! ### The Air Arbiter -/

/-- A request is eligible when the paddle is IDLE and no stroke set is held (R120). -/
def Outlet.eligible (x : Outlet) : Bool := x.request.isSome && x.paddle == .idle && x.strokeSet.isNone

/-- The grant order of a request, least first (R123): deadline requests by slack and then arbitration level, test strokes after every
deadline request and by arbitration level. A tie goes to the lower outlet number. -/
def grantRank (pos : Pos) (x : Outlet) : Nat × Nat × Nat :=
  match x.request with
  | some (.deadline _ late _) => (0, ahead late pos, x.fields.level)
  | _ => (1, 0, x.fields.level)

/-- `a` goes strictly before `b`. -/
def rankBefore (a b : Nat × Nat × Nat) : Bool :=
  a.1 < b.1 || (a.1 == b.1 && (a.2.1 < b.2.1 || (a.2.1 == b.2.1 && a.2.2 < b.2.2)))

/-- The better of the request found so far and that of one more outlet (R120, R123). -/
def State.betterGrant (s : State) (best : Option OutletNo) (o : OutletNo) : Option OutletNo :=
  if (s.outlet o).eligible then
    match best with
    | none => some o
    | some b => if rankBefore (grantRank s.bpu.position (s.outlet o)) (grantRank s.bpu.position (s.outlet b)) then some o else best
  else best

/-- The outlet whose request is granted at a decision (R123). -/
def State.pickGrant (s : State) : Option OutletNo := outletNos.foldl s.betterGrant none

/-- The paddle's part of a grant (R113). -/
def Outlet.startStroke (x : Outlet) : Outlet :=
  { x with paddle := .stroke, strokeTimer := 0, strokeFigure := x.fields.strokeTime, request := none }

/-- A deadline grant at an outlet record (R126): the stroke set is formed, the confirm timer starts, and the latest fire point goes if this
cluster set it. -/
def Outlet.holdSet (x : Outlet) (members : List Tag) (units : Nat) : Outlet :=
  { x with
    strokeSet := some { members := members, units := units }
    confirmTimer := 0
    windowFigure := x.fields.confirmWindow
    latest := match x.latest with
      | some l => if l.owner ∈ members then none else some l
      | none => none }

/-- A record in another state, with its next waypoint (R28). -/
def Record.become (st : RecordState) (w : Option Pos) (r : Record) : Record := { r with state := st, waypoint := w }

/-- A grant at an outlet whose request waits (R113, R124, R126). -/
def State.grant (s : State) (o : OutletNo) : State :=
  match (s.outlet o).request with
  | none => s
  | some .test => { s.modOutlet o Outlet.startStroke with aa := { slotsInUse := s.aa.slotsInUse + 1 } }
  | some (.deadline members _ units) =>
    let s := { s.modOutlet o (fun x => x.startStroke.holdSet members units) with aa := { slotsInUse := s.aa.slotsInUse + 1 } }
    let s := s.countOutlet o .strokes 1
    s.mapRecords (fun r => members.contains r.tag) (Record.become .fired none)

/-- Grants while a slot is free and an eligible request waits, at most `fuel` of them (R122). -/
def State.grantUpTo (s : State) : Nat → State
  | 0 => s
  | fuel + 1 =>
    if s.params.airBudget ≤ s.aa.slotsInUse then s
    else
      match s.pickGrant with
      | none => s
      | some o => (s.grant o).grantUpTo fuel

/-- A grant decision (R122). Each grant ends the wait of one outlet's request, so sixteen are enough. -/
def State.grantDecision (s : State) : State := s.grantUpTo 16

/-! ### Paddle faults -/

/-- Entry to FAULTED (R116): FIRE is released; a paddle left from STROKE gives up its slot, which is a grant occasion; OUTLET is raised; and
the loss of acceptance re-routes what waits at the outlet (R106). A paddle already FAULTED is not entered again. -/
def State.enterFaulted (s : State) (o : OutletNo) : State :=
  let was := (s.outlet o).paddle
  if was = .faulted then s
  else
    let s := s.modOutlet o (fun x => { x with paddle := .faulted })
    let s := if was = .stroke then { s with aa := { slotsInUse := s.aa.slotsInUse - 1 } }.grantDecision else s
    (s.raise .outlet).loseAcceptance o

/-! ### Fire requests -/

/-- A ROUTED cluster at its fire point (R29, R118): the request is abandoned with PADDLE_BUSY when another waits (R119); otherwise it waits, is
granted at once when it is eligible and a slot is free, and else the late limit becomes the members' waypoint. -/
def State.fireCluster (s : State) (leader : Tag) : State :=
  match s.membersOf leader with
  | [] => s
  | r :: rest =>
    match r.route with
    | none => s
    | some route =>
      let o := route.outlet
      let members := (r :: rest).map (·.tag)
      let units := ((r :: rest).map (fun m => (m.route.map (·.units)).getD 0)).sum
      let late := plus route.firePoint (s.outlet o).fields.lateTolerance
      match (s.outlet o).request with
      | some _ => (s.countOutlet o .abandoned 1).carryCluster .paddleBusy leader
      | none =>
        let s := s.modOutlet o (fun x => { x with request := some (.deadline members late units) })
        let s := s.mapRecords (fun m => m.leaderTag == leader) (Record.become .due none)
        let s := if (s.outlet o).eligible then s.grantDecision else s
        s.mapRecords (fun m => m.leaderTag == leader && m.state == .due) (Record.become .due (some late))

/-- A DUE cluster at its late limit: the waiting request is abandoned with FIRE_LATE (R119). -/
def State.abandonLate (s : State) (leader : Tag) : State :=
  match s.membersOf leader with
  | [] => s
  | r :: _ =>
    match r.route with
    | none => s
    | some route => (s.countOutlet route.outlet .abandoned 1).carryCluster .fireLate leader

/-! ### Waypoints reached by a forward tick -/

/-- The clusters of a state whose waypoint equals a position, by leader, in belt order (R30). -/
def State.reachedIn (s : State) (st : RecordState) (p : Pos) : List Tag :=
  ((s.tc.records.filter (fun r => r.state == st && r.waypoint == some p)).map (·.leaderTag)).eraseDups

/-- A cluster that still has a member of a state with this waypoint. -/
def State.stillAt (s : State) (st : RecordState) (p : Pos) (t : Tag) : Bool :=
  (s.membersOf t).any (fun r => r.state == st && r.waypoint == some p)

/-- The clusters of one kind at a position acted on, oldest first, each once (R30). -/
def State.reachKind (s : State) (st : RecordState) (p : Pos) (act : State → Tag → State) : State :=
  (s.reachedIn st p).foldl (fun s t => if s.stillAt st p t then act s t else s) s

/-- The waypoints that a forward tick reaches (R18, R29, R30): end points, late limits, fire points, decision points, and last the late
limits that this tick's fire points have set at the position (R19, R29, R30; log 9). -/
def State.reachWaypoints (s : State) : State :=
  let p := s.bpu.position
  let s := s.reachKind .carried p (fun s t => s.retire .ended t)
  let s := s.reachKind .due p State.abandonLate
  let s := s.reachKind .routed p State.fireCluster
  let s := s.reachKind .pending p State.decisionWalk
  s.reachKind .due p State.abandonLate

/-! ### Confirm, miss, stray -/

/-- A rack after committed units went from it by a confirm: a CLOSING rack whose committed is 0 becomes SWAP_READY (R98, R100). -/
def State.judgeClosing (s : State) (o : OutletNo) : State :=
  let x := s.outlet o
  if x.rack = .closing ∧ x.committed = 0 then (s.setOutlet o { x with rack := .swapReady }).raise .rack else s

/-- The confirm of a held stroke set (R100, R127). The units move from committed to fill, so fill + committed is unchanged. -/
def State.confirm (s : State) (o : OutletNo) (set : StrokeSet) : State :=
  let s := s.retireAll .delivered set.members
  let x := s.outlet o
  let moved := min set.units x.committed
  let s := s.setOutlet o { x with committed := x.committed - moved, fill := x.fill + moved, missRun := 0, strokeSet := none }
  let s := (s.countOutlet o .items set.members.length).countOutlet o .units set.units
  let s := (s.judgeFill o x.fill).judgeClosing o
  s.grantDecision

/-- A stray passage (R103): counted, and one unit of fill when a rack is present with room. -/
def State.stray (s : State) (o : OutletNo) : State :=
  let s := s.countOutlet o .strays 1
  let x := s.outlet o
  if x.rack ≠ .absent ∧ x.fill + x.committed < x.fields.capacity then
    (s.setOutlet o { x with fill := x.fill + 1 }).judgeFill o x.fill
  else s

/-- A passage at an outlet (R102, R127): it confirms a held set, and is stray when none is held. -/
def State.takePassage (s : State) (o : OutletNo) : State :=
  match (s.outlet o).strokeSet with
  | some set => s.confirm o set
  | none => s.stray o

/-- The stroke set no longer held (R127, R128). -/
def Outlet.endSet (x : Outlet) : Outlet := { x with strokeSet := none }

/-- One more miss in a row, saturating at 15 (R128). -/
def Outlet.raiseMissRun (x : Outlet) : Outlet := { x with missRun := min 15 (x.missRun + 1) }

/-- The miss of a held stroke set (R128): its records are CARRIED with STROKE_MISS, the miss is counted, the miss run rises, and at
MISS_LIMIT the paddle enters FAULTED; otherwise the end of the set is a grant occasion. -/
def State.miss (s : State) (o : OutletNo) (set : StrokeSet) : State :=
  let s := s.modOutlet o Outlet.endSet
  let s := set.members.foldl (fun s t => s.carryRecord .strokeMiss t) s
  let s := s.countOutlet o .misses 1
  let s := s.modOutlet o Outlet.raiseMissRun
  if s.params.missLimit ≤ (s.outlet o).missRun ∧ (s.outlet o).paddle ≠ .faulted then s.enterFaulted o else s.grantDecision

end Sys2Proof.Machine
end

