-- ==== Sys2Proof/Machine/Lines.lean ====
section
/-! DEFINITION. What the lines and timers of an outlet bring about: strokes and recoveries ending, HOME levels, rack arrival and removal, the
swap button, passages, and the chute's condition (spec/04, spec/05). -/

namespace Sys2Proof.Machine

/-! ### The paddle -/

/-- The end of a stroke (R113, R114): FIRE is released, the slot is freed, the paddle enters RECOVER with the recover time and home timeout read,
and a grant decision follows. -/
def State.endStroke (s : State) (o : OutletNo) : State :=
  let s := s.modOutlet o (fun x =>
    { x with paddle := .recover, recoverTimer := 0, recoverFigure := x.fields.recoverTime, homeFigure := x.fields.homeTimeout })
  { s with aa := { slotsInUse := s.aa.slotsInUse - 1 } }.grantDecision

/-- The end of a recovery (R114): IDLE, and a grant decision. -/
def State.endRecovery (s : State) (o : OutletNo) : State := (s.modOutlet o (fun x => { x with paddle := .idle })).grantDecision

/-- The recovery of a paddle ends at a tick at which its timer has reached the recover time and HOME is home (R114). -/
def Outlet.recovered (x : Outlet) : Bool :=
  x.paddle == .recover && 1 ≤ x.recoverTimer && x.recoverFigure ≤ x.recoverTimer && x.homeFilter.accepted == some true

/-- A paddle in RECOVER whose timer has reached the home timeout with HOME away (R115); HOME in acquisition counts as away (R112). -/
def Outlet.homeLate (x : Outlet) : Bool :=
  x.paddle == .recover && x.homeFigure ≤ x.recoverTimer && x.homeFilter.accepted != some true

/-- A HOME level accepted (R112). It is read in RECOVER at this tick (R114, R115), so the recovery's end or the home timeout comes due with it. -/
def State.acceptHome (s : State) (o : OutletNo) (home : Bool) : State :=
  let s := s.modOutlet o (fun x => { x with homeFilter := x.homeFilter.accept home })
  let x := s.outlet o
  { s with due := s.due ++ (if x.recovered then [Event.recoveryEnd o] else []) ++ (if x.homeLate then [Event.homeTimeout o] else []) }

/-! ### The rack -/

/-- A rack arrives (R93): its key is latched, the rack is OPEN and fill is 0. -/
def State.rackArrives (s : State) (o : OutletNo) (key : KeyNo) : State :=
  s.modOutlet o (fun x => { x with rackFilter := x.rackFilter.accept true, rackKey := some key, rack := .opened, fill := 0 })

/-- A stroke set held at an outlet whose rack is removed: its records are retired LOST and their units given back (R94, step 3). -/
def State.loseSet (s : State) (o : OutletNo) : State :=
  match (s.outlet o).strokeSet with
  | none => s
  | some set =>
    let s := s.modOutlet o Outlet.endSet
    (s.release o set.units).retireAll .lost set.members

/-- Rack removal (R94), its five steps in their order, and the grant decision at the end of a stroke set (R122). -/
def State.rackRemoved (s : State) (o : OutletNo) : State :=
  let key := (s.outlet o).rackKey
  let held := (s.outlet o).strokeSet.isSome
  let s := s.modOutlet o (fun x => { x with rackFilter := x.rackFilter.accept false, rack := .absent, rackKey := none })
  let s := (s.loseAcceptance o).loseSet o
  let s := if 0 < (s.outlet o).fill then
      let s := match key with
        | some k => s.countKey k .racks
        | none => s
      s.countOutlet o .racks 1
    else s
  let s := s.modOutlet o (fun x => { x with fill := 0 })
  if held then s.grantDecision else s

/-- A press of the SWAP button, or OUTLET CLOSE (R96, R97). -/
def State.pressRack (s : State) (o : OutletNo) : State :=
  let x := s.outlet o
  match x.rack with
  | .opened => if 0 < x.committed then s.setOutlet o { x with rack := .closing } else (s.setOutlet o { x with rack := .swapReady }).raise .rack
  | .full => (s.setOutlet o { x with rack := .swapReady }).raise .rack
  | _ => s

/-! ### The chute -/

/-- The chute becomes BLOCKED (R104): OUTLET is raised and acceptance is lost (R106). -/
def State.blockChute (s : State) (o : OutletNo) : State :=
  ((s.modOutlet o (fun x => { x with blocked := true })).raise .outlet).loseAcceptance o

/-- The chute becomes CLEAR (R105). -/
def State.clearChute (s : State) (o : OutletNo) : State := s.modOutlet o (fun x => { x with blocked := false })

/-! ### Accepted levels of the eye and the button -/

/-- The eye's level accepted as blocked (R101, R102): a passage, but for a first level set in acquisition. -/
def State.eyeBlocks (s : State) (o : OutletNo) : State :=
  let was := (s.outlet o).eyeFilter.accepted
  let s := s.modOutlet o (fun x => { x with eyeFilter := x.eyeFilter.accept true })
  if was = some false then s.takePassage o else s

/-- The button's level accepted as pressed (R96): a press, but for a first level set in acquisition. -/
def State.buttonPresses (s : State) (o : OutletNo) : State :=
  let was := (s.outlet o).buttonFilter.accepted
  let s := s.modOutlet o (fun x => { x with buttonFilter := x.buttonFilter.accept true })
  if was = some false then s.pressRack o else s

end Sys2Proof.Machine
end

