-- ==== Sys2Proof/Machine/Operands.lean ====
section
/-! DEFINITION. The operand forms of the supervisor port's requests and the layouts of its responses (spec/11, R181, R205, R206). -/

namespace Sys2Proof.Machine

/-! ### Codes of the enumerated fields (spec/11) -/

/-- Status codes. -/
def Status.code : Status → Byte
  | .ok => 0x00
  | .clamped => 0x01
  | .badFrame => 0x10
  | .unknownRequest => 0x11
  | .range => 0x12
  | .notFound => 0x20
  | .tooLate => 0x21
  | .notStandby => 0x22
  | .noPlan => 0x23
  | .noRack => 0x24
  | .notHome => 0x25
  | .outletEnabled => 0x26
  | .paddleBusy => 0x27

/-- Service state codes. -/
def ServiceState.code : ServiceState → Nat
  | .standby => 0
  | .serving => 1
  | .draining => 2
  | .failsafe => 3

/-- Link state codes. -/
def LinkState.code : LinkState → Nat
  | .offline => 0
  | .syncing => 1
  | .active => 2

/-- Record state codes. -/
def RecordState.code : RecordState → Nat
  | .pending => 1
  | .routed => 2
  | .due => 3
  | .fired => 4
  | .carried => 5

/-- Refusal reason codes. -/
def RefusalReason.code : RefusalReason → Nat
  | .notOpen => 1
  | .beyondEnd => 2
  | .cls => 3
  | .key => 4
  | .span => 5
  | .capacity => 6
  | .late => 7
  | .spacing => 8

/-- Carry reason codes. -/
def CarryReason.code : CarryReason → Nat
  | .chainEnd => 1
  | .noChain => 2
  | .planCheck => 3
  | .clusterLimit => 4
  | .overlapLate => 5
  | .fireLate => 6
  | .paddleBusy => 7
  | .strokeMiss => 8

/-- Rack state codes. -/
def RackState.code : RackState → Nat
  | .absent => 0
  | .opened => 1
  | .full => 2
  | .closing => 3
  | .swapReady => 4

/-- Paddle state codes. -/
def PaddleState.code : PaddleState → Nat
  | .idle => 0
  | .stroke => 1
  | .recover => 2
  | .faulted => 3

/-- Lamp codes. -/
def Lamp.code : Lamp → Nat
  | .off => 0
  | .slow => 1
  | .steady => 2
  | .fast => 3

/-- Check kind codes of READ PLAN STATUS. -/
def CheckKind.code : CheckKind → Nat
  | .walkLimit => 1
  | .pastEnd => 2
  | .doubleJump => 3

/-- A flag as 0 or 1. -/
def flag (b : Bool) : Nat := if b then 1 else 0

/-! ### Arguments -/

/-- An outlet argument; above 15 it is out of range (R181). -/
def outletOf (b : Byte) : Option OutletNo := if h : b.toNat < 16 then some ⟨b.toNat, h⟩ else none

/-- A class argument; above 63 it is out of range (R181). -/
def classOf (b : Byte) : Option ClassNo := if h : b.toNat < 64 then some ⟨b.toNat, h⟩ else none

/-- A key argument; above 15 it is out of range (R190). -/
def keyOf (b : Byte) : Option KeyNo := if h : b.toNat < 16 then some ⟨b.toNat, h⟩ else none

/-- A tag argument; above 4,095 it is out of range (R181). -/
def tagOf (t : BitVec 16) : Option Tag :=
  if t.toNat < 4096 then some { slot := Fin.ofNat 256 (t.toNat / 16), gen := BitVec.ofNat 4 t.toNat } else none

/-- A route index of a byte. -/
def routeIxOf (b : Byte) : RouteIx := Fin.ofNat 256 b.toNat

/-- A head or audit head: an index, or 0x0100 for NONE; above that the layout cannot express it (R205). -/
def headOf (h : BitVec 16) : Option (Option RouteIx) :=
  if h.toNat < 256 then some (some (Fin.ofNat 256 h.toNat)) else if h.toNat = 256 then some none else none

/-- A head as it is returned. -/
def headCode : Option RouteIx → Nat
  | some i => i.val
  | none => 0x100

/-- The route entry of PUT ROUTE (R57, R205): a field above 0x0100, an outlet above 15, a JUMP target NONE and a kind above 2 are out of range;
an END stores field 0 and a clear chain flag. -/
def routeEntryOf (kind : Byte) (field : BitVec 16) (chain : Byte) : Option RouteEntry :=
  if 0x100 < field.toNat then none
  else
    match kind.toNat with
    | 0 => some .stop
    | 1 => if h : field.toNat < 16 then some (.outlet ⟨field.toNat, h⟩ (chain.getLsbD 0)) else none
    | 2 => if h : field.toNat < 256 then some (.jump ⟨field.toNat, h⟩ (chain.getLsbD 0)) else none
    | _ => none

/-! ### Answers -/

/-- A refusal: the status and no data (R181). -/
def refuse (st : Status) : Response := { status := st, data := [] }

/-- An answer of OK with data. -/
def okWith (data : List Byte) : Response := { status := .ok, data := data }

/-- OK, or CLAMPED when the stored value differs from the one written, with data. -/
def okOrClamped (same : Bool) (data : List Byte) : Response := { status := if same then .ok else .clamped, data := data }

/-- A response frame: status, length, data, CRC (spec/11). -/
def Response.frame (r : Response) : List Byte :=
  let body := r.status.code :: BitVec.ofNat 8 r.data.length :: r.data
  body ++ [crc8 body]

/-- A response placed in the buffer: it replaces what the buffer held, and READY is asserted (R176, R178). The request buffer holds the first 19
bytes of the frame; SP_MISO carried all ones. -/
def State.respond (s : State) (frame : List Byte) (r : Response) : State :=
  { s with sp := { s.sp with requestBuffer := frame.take 19, response := some r, ready := true, miso := [] } }

/-- A request taken whole at the rising edge of SP_CS_N (R176, R182). While the reset hold is set no transaction begins (R175, R180), and
the hold stays (log 32). -/
def serve (c : Instr) (body : State → State × Response) (s : State) : Outcome :=
  if s.sp.resetHold then .next s else .next ((body s).1.respond (portFrame c) (body s).2)

/-! ### Layouts of responses (spec/11) -/

/-- The status block of QUERY STATUS (R183), 15 bytes. -/
def State.statusBlock (s : State) : List Byte :=
  be 1 s.service.code ++ be 1 s.ilc.link.code ++ be 1 (flag s.beltRunning) ++ be 3 s.bpu.position.toNat ++ be 2 s.bpu.v ++ be 3 s.bpu.hwm.toNat
    ++ be 2 s.freeCount ++ be 1 s.credit ++ [s.tau.latches]

/-- The free units of an outlet: capacity − fill − committed, and 0 in ABSENT and FULL (R91). -/
def Outlet.freeUnits (x : Outlet) : Nat :=
  if x.rack = .absent ∨ x.rack = .full then 0 else x.fields.capacity - x.fill - x.committed

/-- The late limit of a waiting deadline request, 0 when there is none. -/
def Outlet.lateLimit (x : Outlet) : Nat :=
  match x.request with
  | some (.deadline _ late _) => late.toNat
  | _ => 0

/-- The request kind: 0 none, 1 deadline, 2 test. -/
def Outlet.requestKind (x : Outlet) : Nat :=
  match x.request with
  | none => 0
  | some (.deadline ..) => 1
  | some .test => 2

/-- The outlet block of GET OUTLET (R91), 50 bytes. -/
def Outlet.block (x : Outlet) : List Byte :=
  let f := x.fields
  be 3 f.position ++ be 1 f.latency ++ [BitVec.ofInt 8 f.trim] ++ be 1 f.strokeTime ++ be 1 f.recoverTime ++ be 2 f.homeTimeout
    ++ be 2 f.confirmWindow ++ be 2 f.maxSpan ++ be 1 f.lateTolerance ++ be 2 f.capacity ++ be 2 f.warnLevel ++ be 8 f.acceptMask.toNat
    ++ be 1 f.level ++ be 1 (flag x.enabled + 2 * flag f.holdOnBlock)
    ++ be 1 x.rack.code ++ be 1 ((x.rackKey.map (·.val)).getD 0xFF) ++ be 2 x.fill ++ be 2 x.committed ++ be 2 x.freeUnits
    ++ be 1 (flag x.latest.isSome) ++ be 3 ((x.latest.map (·.point.toNat)).getD 0)
    ++ be 1 (flag x.blocked) ++ be 1 x.paddle.code ++ be 1 (flag x.request.isSome)
    ++ be 1 ((x.strokeSet.map (·.members.length)).getD 0) ++ be 1 x.missRun ++ be 1 x.lamp.code
    ++ be 3 x.lateLimit ++ be 1 x.requestKind

/-- The cluster field of a snapshot: the leader's tag on a member, 0x8000 plus the count on the leader, 0xFFFF when absent (R206). -/
def clusterCode : Option ClusterLink → Nat
  | some (.member t) => t.toNat
  | some (.leader n) => 0x8000 + n
  | none => 0xFFFF

/-- The waypoint kind of a record that has a waypoint: 1 decision point, 2 fire point, 3 late limit, 4 end point; 0 without one (R206). -/
def Record.waypointKind (r : Record) : Nat :=
  match r.waypoint, r.state with
  | none, _ => 0
  | some _, .pending => 1
  | some _, .routed => 2
  | some _, .due => 3
  | some _, .fired => 0
  | some _, .carried => 4

/-- The distance ahead of the cluster leader's decision point, saturating at 65,535, on a PENDING record; 0xFFFF otherwise (R206). -/
def State.decisionAhead (s : State) (r : Record) : Nat :=
  match r.state, (s.find r.leaderTag).bind (·.waypoint) with
  | .pending, some w => min 65535 (ahead w s.bpu.position)
  | _, _ => 0xFFFF

/-- A record snapshot (R206), 28 bytes. -/
def State.snapshot (s : State) (r : Record) : List Byte :=
  be 2 r.tag.toNat ++ [r.number] ++ be 3 r.stamp.toNat ++ be 2 r.length ++ be 1 r.cls.val ++ be 1 r.key.val ++ be 1 r.state.code
    ++ be 1 (flag r.flags.audit + 2 * flag r.flags.amended + 4 * flag r.flags.stampClamped + 8 * flag r.flags.rerouted)
    ++ be 2 (clusterCode r.cluster)
    ++ be 1 ((r.route.map (·.outlet.val)).getD 0xFF) ++ be 1 ((r.route.map (·.entry.val)).getD 0)
    ++ be 3 ((r.route.map (·.firePoint.toNat)).getD 0) ++ be 1 ((r.route.map (·.units)).getD 0)
    ++ be 1 ((r.lastRefusal.map (·.code)).getD 0) ++ be 1 ((r.carry.map (·.code)).getD 0)
    ++ be 1 r.waypointKind ++ be 3 ((r.waypoint.map (·.toNat)).getD 0) ++ be 2 (s.decisionAhead r)

/-- A class entry after its class: weight, head, audit enable, audit head. -/
def ClassEntry.block (e : ClassEntry) : List Byte :=
  be 1 e.weight ++ be 2 (headCode e.head) ++ be 1 (flag e.auditEnable) ++ be 2 (headCode e.auditHead)

/-- A route entry after its index: kind, field, chain flag. -/
def RouteEntry.block : RouteEntry → List Byte
  | .stop => be 1 0 ++ be 2 0 ++ be 1 0
  | .outlet o chain => be 1 1 ++ be 2 o.val ++ be 1 (flag chain)
  | .jump t chain => be 1 2 ++ be 2 t.val ++ be 1 (flag chain)

/-- The answer of READ PLAN STATUS: plan-valid, active bank, check kind, class, entry index; kind, class and index 0 when the status is empty. -/
def Rd.statusBlock (r : Rd) : List Byte :=
  be 1 (flag r.planValid) ++ be 1 (flag r.active)
    ++ (match r.planStatus with
      | none => be 1 0 ++ be 1 0 ++ be 1 0
      | some c => be 1 c.kind.code ++ be 1 c.cls.val ++ be 1 c.entry.val)

/-- The five tallies of a key, in the order of R196. -/
def KeyTally.block (t : KeyTally) : List Byte := be 3 t.delivered ++ be 3 t.ended ++ be 3 t.withdrawn ++ be 3 t.lost ++ be 3 t.racks

/-- The seven tallies of an outlet, in the order of R197. -/
def OutletTally.block (t : OutletTally) : List Byte :=
  be 3 t.items ++ be 3 t.units ++ be 3 t.strokes ++ be 3 t.misses ++ be 3 t.abandoned ++ be 3 t.strays ++ be 3 t.racks

/-- The ten device tallies, in the order of R198. -/
def DeviceTally.block (t : DeviceTally) : List Byte :=
  be 3 t.badFrames ++ be 3 t.outOfOrder ++ be 3 t.overruns ++ be 3 t.refused ++ be 3 t.stale ++ be 3 t.gapTotal ++ be 3 t.unmatched
    ++ be 3 t.planChecks ++ be 3 t.trackLosses ++ be 3 t.encoderFaults

end Sys2Proof.Machine
end

