-- ==== Sys2Proof/Machine/PortOutlets.lean ====
section
/-! DEFINITION. The parameter and outlet requests of the supervisor port (R184, R185, R186 and the rules that own each parameter and action). -/

namespace Sys2Proof.Machine

/-! ### Global parameters (R184, spec/11) -/

/-- The range of a global parameter by its number; `none` where the number names no parameter. -/
def paramRange (n : Nat) : Option (Nat × Nat) :=
  match n with
  | 0 => some (1000, 65535)
  | 1 => some (1, 15)
  | 2 => some (0, 1)
  | 3 => some (20, 200)
  | 4 => some (0, 65535)
  | 5 => some (100, 10000)
  | 6 => some (0, 255)
  | 7 => some (0, 1048575)
  | 8 => some (0, 1048575)
  | 9 => some (8, 1023)
  | 10 => some (0, 11)
  | 11 => some (0, 4095)
  | 12 => some (20, 1000)
  | 13 => some (1, 20)
  | 14 => some (100, 10000)
  | 15 => some (100, 5000)
  | 16 => some (1, 8)
  | 17 => some (1, 15)
  | 18 => some (10, 1000)
  | 19 => some (5, 500)
  | 20 => some (1, 50)
  | 21 => some (0, 32)
  | 22 => some (64, 65535)
  | _ => none

/-- MS_DIV, ENC_FILTER, ENC_INVERT, W, Q and D_END are written in STANDBY alone (R172). -/
def standbyOnly (n : Nat) : Bool := n ≤ 3 || n == 7 || n == 8

/-- The value of a global parameter; AUDIT_SEED reads as the audit sampler (R80). -/
def State.paramValue (s : State) (n : Nat) : Nat :=
  match n with
  | 0 => s.params.msDiv
  | 1 => s.params.encFilter
  | 2 => flag s.params.encInvert
  | 3 => s.params.window
  | 4 => s.params.reverseAllow
  | 5 => s.params.stallTime
  | 6 => s.params.clearance
  | 7 => s.params.q
  | 8 => s.params.dEnd
  | 9 => s.params.armMargin
  | 10 => s.params.auditRate
  | 11 => s.rd.sampler.toNat
  | 12 => s.params.rackDebounce
  | 13 => s.params.eyeFilter
  | 14 => s.params.chuteBlockTime
  | 15 => s.params.chuteClearTime
  | 16 => s.params.airBudget
  | 17 => s.params.missLimit
  | 18 => s.params.syncTimeout
  | 19 => s.params.linkSilence
  | 20 => s.params.beaconPeriod
  | 21 => s.params.creditMargin
  | 22 => s.params.noticeAge
  | _ => 0

/-- The effect of a W write (R14): V is 0, the belt STOPPED, and the window starts again. -/
def Bpu.restartWindow (b : Bpu) : Bpu := { b with v := 0, windowTimer := 0, windowCount := 0, windowIllegal := false }

/-- The effect of an ENC_FILTER write on the filters (R1): the counts are 0 and the accepted levels kept. -/
def Bpu.clearFilterCounts (b : Bpu) : Bpu := { b with encA := { b.encA with count := 0 }, encB := { b.encB with count := 0 } }

/-- A value stored in a global parameter, with the effect its rule gives the write (R1, R8, R11, R14, R20, R52, R80, R109, R125, R130, R159). -/
def State.storeParam (s : State) (n v : Nat) : State :=
  let p := s.params
  match n with
  | 0 => { s with params := { p with msDiv := v }, time := { divider := 0 } }
  | 1 => { s with params := { p with encFilter := v }, bpu := s.bpu.clearFilterCounts }
  | 2 => { s with params := { p with encInvert := v == 1 } }
  | 3 => { s with params := { p with window := v }, bpu := s.bpu.restartWindow }
  | 4 => { s with params := { p with reverseAllow := v } }.judgeExcess
  | 5 => { s with params := { p with stallTime := v } }
  | 6 => { s with params := { p with clearance := v } }
  | 7 => { s with params := { p with q := v } }
  | 8 => { s with params := { p with dEnd := v } }
  | 9 => { s with params := { p with armMargin := v } }
  | 10 => { s with params := { p with auditRate := v } }
  | 11 => { s with rd := { s.rd with sampler := BitVec.ofNat 12 v } }
  | 12 => { s with params := { p with rackDebounce := v } }
  | 13 => { s with params := { p with eyeFilter := v } }
  | 14 => { s with params := { p with chuteBlockTime := v } }
  | 15 => { s with params := { p with chuteClearTime := v } }
  | 16 => { s with params := { p with airBudget := v } }.grantDecision
  | 17 => { s with params := { p with missLimit := v } }
  | 18 => { s with params := { p with syncTimeout := v } }
  | 19 => { s with params := { p with linkSilence := v } }
  | 20 => { s with params := { p with beaconPeriod := v } }
  | 21 => { s with params := { p with creditMargin := v } }
  | 22 => { s with params := { p with noticeAge := v } }
  | _ => s

/-- SET PARAM (R184): the range of the number, then the service state, then the clamp. -/
def State.setParam (s : State) (number : Byte) (value : BitVec 24) : State × Response :=
  match paramRange number.toNat with
  | none => (s, refuse .range)
  | some (lo, hi) =>
    if standbyOnly number.toNat = true ∧ s.service ≠ .standby then (s, refuse .notStandby)
    else
      let v := clamp lo hi value.toNat
      (s.storeParam number.toNat v, okOrClamped (v == value.toNat) (be 3 v))

/-- GET PARAM (R184). -/
def State.getParam (s : State) (number : Byte) : State × Response :=
  match paramRange number.toNat with
  | none => (s, refuse .range)
  | some _ => (s, okWith (be 3 (s.paramValue number.toNat)))

/-! ### Outlet fields (R86, R88, R185) -/

/-- The number of the accept mask among the outlet fields (spec/11). -/
def maskField : Nat := 11

/-- Fields 0 to 7 are mech fields, written only while the outlet is DISABLED (R86). -/
def mechField (field : Nat) : Bool := field ≤ 7

/-- The range of an outlet field, but for the trim and the accept mask (R86). -/
def fieldRange (field : Nat) : Nat × Nat :=
  match field with
  | 0 => (0, 1048575)
  | 1 => (0, 255)
  | 3 => (10, 255)
  | 4 => (0, 255)
  | 5 => (10, 1000)
  | 6 => (20, 2000)
  | 7 => (16, 4095)
  | 8 => (0, 255)
  | 9 => (1, 1023)
  | 10 => (0, 1023)
  | 12 => (0, 15)
  | _ => (0, 1)

/-- A signed value brought into −128 to +127 (R86). -/
def clampTrim (t : Int) : Int := max (-128) (min 127 t)

/-- A value stored in a field (R86). -/
def OutletFields.store (f : OutletFields) (field v : Nat) : OutletFields :=
  match field with
  | 0 => { f with position := v }
  | 1 => { f with latency := v }
  | 3 => { f with strokeTime := v }
  | 4 => { f with recoverTime := v }
  | 5 => { f with homeTimeout := v }
  | 6 => { f with confirmWindow := v }
  | 7 => { f with maxSpan := v }
  | 8 => { f with lateTolerance := v }
  | 9 => { f with capacity := v }
  | 10 => { f with warnLevel := v }
  | 12 => { f with level := v }
  | 13 => { f with holdOnBlock := v == 1 }
  | _ => f

/-- The rack state judged against a capacity written (R88): an OPEN rack at or above it becomes FULL and raises RACK, a FULL rack below it OPEN. -/
def State.judgeCapacity (s : State) (o : OutletNo) : State :=
  let x := s.outlet o
  match x.rack with
  | .opened => if x.fields.capacity ≤ x.fill then (s.setOutlet o { x with rack := .full }).raise .rack else s
  | .full => if x.fill < x.fields.capacity then s.setOutlet o { x with rack := .opened } else s
  | _ => s

/-- The value that a write of a field stores, as a 24-bit number (R86, R88, R185, R205). -/
def Outlet.fieldValue (x : Outlet) (field : Nat) (value : BitVec 24) : Nat :=
  if field = 2 then (BitVec.ofInt 24 (clampTrim value.toInt)).toNat
  else
    let v := clamp (fieldRange field).1 (fieldRange field).2 value.toNat
    if field = 9 then max v (x.fill + x.committed) else v

/-- A field written, its range and the mech check passed. -/
def State.writeField (s : State) (o : OutletNo) (field : Nat) (value : BitVec 24) : State × Response :=
  let v := (s.outlet o).fieldValue field value
  let s := s.modOutlet o (fun x =>
    { x with fields := if field = 2 then { x.fields with trim := clampTrim value.toInt } else x.fields.store field v })
  let s := if field = 9 then s.judgeCapacity o else s
  (s, okOrClamped (v == value.toNat) (be 3 v))

/-- SET OUTLET FIELD (R185, R205): the outlet, the field and the form of the value, then the mech check, then the clamp. -/
def State.setOutletField (s : State) (outlet field : Byte) (value : FieldArg) : State × Response :=
  match outletOf outlet with
  | none => (s, refuse .range)
  | some o =>
    match value with
    | .short v =>
      if 13 < field.toNat ∨ field.toNat = maskField then (s, refuse .range)
      else if mechField field.toNat = true ∧ (s.outlet o).enabled = true then (s, refuse .outletEnabled)
      else s.writeField o field.toNat v
    | .mask m =>
      if field.toNat ≠ maskField then (s, refuse .range)
      else (s.modOutlet o (fun x => { x with fields := { x.fields with acceptMask := m } }), okWith (be 8 m.toNat))

/-! ### Outlet actions (R186) -/

/-- An action on an outlet whose number is in range. -/
def State.onOutlet (s : State) (outlet : Byte) (act : OutletNo → State × Response) : State × Response :=
  match outletOf outlet with
  | none => (s, refuse .range)
  | some o => act o

/-- OUTLET ENABLE (R90): a waiting test stroke is cancelled (R124). -/
def State.enableOutlet (s : State) (o : OutletNo) : State × Response :=
  if (s.outlet o).enabled then (s, okWith [])
  else
    (s.modOutlet o (fun x => { x with enabled := true, request := if x.request = some .test then none else x.request }), okWith [])

/-- OUTLET DISABLE (R90): at an ENABLED outlet a loss of acceptance (R106). -/
def State.disableOutlet (s : State) (o : OutletNo) : State × Response :=
  if (s.outlet o).enabled then ((s.modOutlet o (fun x => { x with enabled := false })).loseAcceptance o, okWith []) else (s, okWith [])

/-- OUTLET CLOSE (R97). -/
def State.closeOutlet (s : State) (o : OutletNo) : State × Response :=
  if (s.outlet o).rack = .absent then (s, refuse .noRack) else (s.pressRack o, okWith [])

/-- REOPEN (R98). -/
def State.reopenOutlet (s : State) (o : OutletNo) : State × Response :=
  let x := s.outlet o
  match x.rack with
  | .absent => (s, refuse .noRack)
  | .opened => (s, okWith [])
  | .full => (s, okWith [])
  | .closing | .swapReady =>
    if x.fill < x.fields.capacity then (s.setOutlet o { x with rack := .opened }, okWith [])
    else ((s.setOutlet o { x with rack := .full }).raise .rack, okWith [])

/-- CLEAR FAULT (R117): a FAULTED paddle at home goes to IDLE with miss run 0, which is a grant occasion. -/
def State.clearFault (s : State) (o : OutletNo) : State × Response :=
  let x := s.outlet o
  if x.paddle = .faulted then
    if x.homeFilter.accepted = some true then ((s.setOutlet o { x with paddle := .idle, missRun := 0 }).grantDecision, okWith [])
    else (s, refuse .notHome)
  else (s, okWith [])

/-- TEST STROKE (R124). -/
def State.testStroke (s : State) (o : OutletNo) : State × Response :=
  let x := s.outlet o
  if x.enabled then (s, refuse .outletEnabled)
  else if x.paddle ≠ .idle ∨ x.request ≠ none ∨ x.strokeSet ≠ none then (s, refuse .paddleBusy)
  else ((s.setOutlet o { x with request := some .test }).grantDecision, okWith [])

/-! ### Commands -/

/-- SET_PARAM (R184). -/
def execSetParam (number : Byte) (value : BitVec 24) (s : State) : Outcome :=
  serve (.setParam number value) (fun s => s.setParam number value) s

/-- GET_PARAM (R184). -/
def execGetParam (number : Byte) (s : State) : Outcome := serve (.getParam number) (fun s => s.getParam number) s

/-- SET_OUTLET_FIELD (R185). -/
def execSetOutletField (outlet field : Byte) (value : FieldArg) (s : State) : Outcome :=
  serve (.setOutletField outlet field value) (fun s => s.setOutletField outlet field value) s

/-- GET_OUTLET (R91). -/
def execGetOutlet (outlet : Byte) (s : State) : Outcome :=
  serve (.getOutlet outlet) (fun s => s.onOutlet outlet (fun o => (s, okWith (s.outlet o).block))) s

/-- OUTLET_ENABLE (R90). -/
def execOutletEnable (outlet : Byte) (s : State) : Outcome := serve (.outletEnable outlet) (fun s => s.onOutlet outlet s.enableOutlet) s

/-- OUTLET_DISABLE (R90). -/
def execOutletDisable (outlet : Byte) (s : State) : Outcome := serve (.outletDisable outlet) (fun s => s.onOutlet outlet s.disableOutlet) s

/-- OUTLET_CLOSE (R97). -/
def execOutletClose (outlet : Byte) (s : State) : Outcome := serve (.outletClose outlet) (fun s => s.onOutlet outlet s.closeOutlet) s

/-- REOPEN (R98). -/
def execReopen (outlet : Byte) (s : State) : Outcome := serve (.reopen outlet) (fun s => s.onOutlet outlet s.reopenOutlet) s

/-- CLEAR_FAULT (R117). -/
def execClearFault (outlet : Byte) (s : State) : Outcome := serve (.clearFault outlet) (fun s => s.onOutlet outlet s.clearFault) s

/-- TEST_STROKE (R124). -/
def execTestStroke (outlet : Byte) (s : State) : Outcome := serve (.testStroke outlet) (fun s => s.onOutlet outlet s.testStroke) s

end Sys2Proof.Machine
end

