-- ==== Sys2Proof/Config.lean ====
section
/-! DEFINITION. What the spec leaves free. -/

namespace Sys2Proof

/-- A free value of the spec, byte `n` of a stream of values nothing constrains: the data bytes of an AMEND TRACK answer whose record
was retired within the same event (log 17). -/
opaque Config.freeByte : Nat → Byte

end Sys2Proof
end

