-- ==== Sys2Proof/Machine/PortRecords.lean ====
section
/-! DEFINITION. The status, plan, track and reporting requests of the supervisor port (R183, R187, R189 to R194). -/

namespace Sys2Proof.Machine

/-! ### The routing plan (R56, R57, R58, R59, R67, R187) -/

/-- PUT CLASS (R56): the weight is clamped to 1 to 15, and every other argument must be in range. -/
def State.putClass (s : State) (cls weight : Byte) (head : BitVec 16) (audit : Byte) (auditHead : BitVec 16) : State × Response :=
  match classOf cls, headOf head, headOf auditHead with
  | some c, some h, some ah =>
    let w := clamp 1 15 weight.toNat
    let entry : ClassEntry := { weight := w, head := h, auditEnable := audit.getLsbD 0, auditHead := ah }
    let bank := s.rd.stagingBank
    ({ s with rd := s.rd.setStaging { bank with classes := vset bank.classes c entry } },
      okOrClamped (w == weight.toNat) (cls :: entry.block))
  | _, _, _ => (s, refuse .range)

/-- PUT ROUTE (R57). -/
def State.putRoute (s : State) (index kind : Byte) (field : BitVec 16) (chain : Byte) : State × Response :=
  match routeEntryOf kind field chain with
  | none => (s, refuse .range)
  | some entry =>
    let bank := s.rd.stagingBank
    ({ s with rd := s.rd.setStaging { bank with routes := vset bank.routes (routeIxOf index) entry } }, okWith [])

/-- GET PLAN ENTRY (R58): bank 0 is the active bank and 1 the staging bank; table 0 holds the classes and 1 the routes. -/
def State.getPlanEntry (s : State) (bank table index : Byte) : State × Response :=
  if 1 < bank.toNat ∨ 1 < table.toNat then (s, refuse .range)
  else
    let b := if bank = 0 then s.rd.activeBank else s.rd.stagingBank
    if table = 0 then
      match classOf index with
      | none => (s, refuse .range)
      | some c => (s, okWith (vget b.classes c).block)
    else (s, okWith (vget b.routes (routeIxOf index)).block)

/-- COMMIT PLAN (R59): the staging bank becomes the active bank and is copied into the other. -/
def Rd.commit (r : Rd) : Rd :=
  let b := r.stagingBank
  { r with bank0 := b, bank1 := b, active := !r.active, planValid := true }

/-! ### Tracks (R50, R51, R189, R190, R191) -/

/-- A request that names a tag: out of range above 4,095, and not found where no live record answers to it (R24). -/
def State.onTag (s : State) (tag : BitVec 16) (act : Record → State × Response) : State × Response :=
  match tagOf tag with
  | none => (s, refuse .range)
  | some t =>
    match s.find t with
    | none => (s, refuse .notFound)
    | some r => act r

/-- The record after a named one in a belt-order list. -/
def recordAfter (t : Tag) : List Record → Option Record
  | [] => none
  | r :: rest => if r.tag = t then rest.head? else recordAfter t rest

/-- An answer with the snapshot of a record, or with no data. -/
def State.snapshotAnswer (s : State) (r : Option Record) : Response :=
  match r with
  | some r => okWith (s.snapshot r)
  | none => okWith []

/-- NEXT TRACK (R50). -/
def State.nextTrack (s : State) (tag : Option (BitVec 16)) : State × Response :=
  match tag with
  | none => (s, s.snapshotAnswer s.tc.records.head?)
  | some t => s.onTag t (fun r => (s, s.snapshotAnswer (recordAfter r.tag s.tc.records)))

/-- A record covers a point (R51). -/
def Record.covers (r : Record) (p : Pos) : Bool := ahead p r.stamp < r.length

/-- FIND AT (R51). -/
def State.findAt (s : State) (d : BitVec 24) : State × Response :=
  if 1048575 < d.toNat then (s, refuse .range)
  else
    let hit := s.tc.records.filter (fun r => r.covers (s.bpu.position - d))
    (s, okWith (be 2 hit.length ++ (hit.take 4).flatMap s.snapshot))

/-- The next free data bytes, and the counter past them (log 17). -/
def State.freeBytes (s : State) (n : Nat) : State × List Byte :=
  ({ s with freeNext := s.freeNext + n }, (List.range n).map (fun i => Config.freeByte (s.freeNext + i)))

/-- AMEND TRACK (R190). The snapshot is of the record after the event; where the event has retired it, the spec gives the data no value (log 17). -/
def State.amendTrack (s : State) (tag : BitVec 16) (sel cls key : Byte) : State × Response :=
  match tagOf tag with
  | none => (s, refuse .range)
  | some _ =>
    if sel.getLsbD 0 = false ∧ sel.getLsbD 1 = false then (s, refuse .range)
    else
      match classOf cls, keyOf key with
      | some c, some k =>
        s.onTag tag (fun r =>
          match s.amend r { cls := if sel.getLsbD 0 then some c else none, key := if sel.getLsbD 1 then some k else none } with
          | none => (s, refuse .tooLate)
          | some t =>
            match t.find r.tag with
            | some r' => (t, okWith (t.snapshot r'))
            | none => ((t.freeBytes 28).1, okWith (t.freeBytes 28).2))
      | _, _ => (s, refuse .range)

/-- The leader's tag after a withdrawal, from the tags that were the withdrawn record's fellow members; 0xFFFF where the cluster is a lone
record or gone (R191; log 16). -/
def State.leaderAfter (s : State) (fellows : List Tag) : Nat :=
  match (fellows.filterMap s.find).head? with
  | some m => if m.cluster.isSome then m.leaderTag.toNat else 0xFFFF
  | none => 0xFFFF

/-- WITHDRAW TRACK (R191). -/
def State.withdrawTrack (s : State) (tag : BitVec 16) : State × Response :=
  s.onTag tag (fun r =>
    match s.withdraw r with
    | none => (s, refuse .tooLate)
    | some t =>
      let fellows := ((s.membersOf r.leaderTag).filter (fun x => x.tag != r.tag)).map (·.tag)
      (t, okWith (be 1 r.state.code ++ be 2 (t.leaderAfter fellows))))

/-! ### Reporting (R192, R193, R194) -/

/-- READ TALLIES (R192): group 0 KEY, 1 OUTLET, 2 DEVICE; with the clear selection the group is 0 after it has been read. -/
def State.readTallies (s : State) (group index clear : Byte) : State × Response :=
  let clr := clear.getLsbD 0
  match group.toNat with
  | 0 =>
    match keyOf index with
    | none => (s, refuse .range)
    | some k =>
      (if clr then { s with tau := { s.tau with keys := vset s.tau.keys k .zero } } else s, okWith (vget s.tau.keys k).block)
  | 1 =>
    match outletOf index with
    | none => (s, refuse .range)
    | some o =>
      (if clr then { s with tau := { s.tau with outlets := vset s.tau.outlets o .zero } } else s, okWith (vget s.tau.outlets o).block)
  | 2 => (if clr then { s with tau := { s.tau with device := .zero } } else s, okWith s.tau.device.block)
  | _ => (s, refuse .range)

/-- SET ATTENTION (R193). -/
def State.setAttention (s : State) (enables lineMap : Byte) : State × Response :=
  ({ s with tau := { s.tau with enables := enables, lineMap := lineMap } }, okWith [enables, lineMap])

/-- ACK ATTENTION (R194). -/
def State.ackAttention (s : State) (sel : Byte) : State × Response :=
  let latches := s.tau.latches &&& ~~~sel
  ({ s with tau := { s.tau with latches := latches } }, okWith [latches])

/-! ### Commands -/

/-- QUERY_STATUS (R183). -/
def execQueryStatus (s : State) : Outcome := serve .queryStatus (fun s => (s, okWith s.statusBlock)) s

/-- PUT_CLASS (R56). -/
def execPutClass (cls weight : Byte) (head : BitVec 16) (audit : Byte) (auditHead : BitVec 16) (s : State) : Outcome :=
  serve (.putClass cls weight head audit auditHead) (fun s => s.putClass cls weight head audit auditHead) s

/-- PUT_ROUTE (R57). -/
def execPutRoute (index kind : Byte) (field : BitVec 16) (chain : Byte) (s : State) : Outcome :=
  serve (.putRoute index kind field chain) (fun s => s.putRoute index kind field chain) s

/-- GET_PLAN_ENTRY (R58). -/
def execGetPlanEntry (bank table index : Byte) (s : State) : Outcome :=
  serve (.getPlanEntry bank table index) (fun s => s.getPlanEntry bank table index) s

/-- COMMIT_PLAN (R59). -/
def execCommitPlan (s : State) : Outcome := serve .commitPlan (fun s => ({ s with rd := s.rd.commit }, okWith [])) s

/-- READ_PLAN_STATUS (R67). -/
def execReadPlanStatus (s : State) : Outcome := serve .readPlanStatus (fun s => (s, okWith s.rd.statusBlock)) s

/-- CLEAR_PLAN_STATUS (R67). -/
def execClearPlanStatus (s : State) : Outcome :=
  serve .clearPlanStatus (fun s => ({ s with rd := { s.rd with planStatus := none } }, okWith [])) s

/-- FIND_TRACK (R50). -/
def execFindTrack (tag : BitVec 16) (s : State) : Outcome :=
  serve (.findTrack tag) (fun s => s.onTag tag (fun r => (s, okWith (s.snapshot r)))) s

/-- NEXT_TRACK (R50). -/
def execNextTrack (tag : Option (BitVec 16)) (s : State) : Outcome := serve (.nextTrack tag) (fun s => s.nextTrack tag) s

/-- FIND_AT (R51). -/
def execFindAt (d : BitVec 24) (s : State) : Outcome := serve (.findAt d) (fun s => s.findAt d) s

/-- AMEND_TRACK (R190). -/
def execAmendTrack (tag : BitVec 16) (sel cls key : Byte) (s : State) : Outcome :=
  serve (.amendTrack tag sel cls key) (fun s => s.amendTrack tag sel cls key) s

/-- WITHDRAW_TRACK (R191). -/
def execWithdrawTrack (tag : BitVec 16) (s : State) : Outcome := serve (.withdrawTrack tag) (fun s => s.withdrawTrack tag) s

/-- READ_TALLIES (R192). -/
def execReadTallies (group index clear : Byte) (s : State) : Outcome :=
  serve (.readTallies group index clear) (fun s => s.readTallies group index clear) s

/-- SET_ATTENTION (R193). -/
def execSetAttention (enables lineMap : Byte) (s : State) : Outcome :=
  serve (.setAttention enables lineMap) (fun s => s.setAttention enables lineMap) s

/-- ACK_ATTENTION (R194). -/
def execAckAttention (sel : Byte) (s : State) : Outcome := serve (.ackAttention sel) (fun s => s.ackAttention sel) s

end Sys2Proof.Machine
end

