-- ==== Sys2Proof/Machine/Service.lean ====
section
/-! DEFINITION. The Service Controller's requests and the two resets (spec/07, R21, R54, R110, R132, R161, R171, R180, R207). -/

namespace Sys2Proof.Machine

/-- The state right after power-on reset, with the reset hold as SP_CS_N stands (R180, R207). The queue of waiting commands is outside the block, and
the counter of free values is the model's own. -/
def State.powerOn (s : State) (csLow : Bool) : State :=
  { State.reset with sp := { Sp.reset with resetHold := csLow }, freeNext := s.freeNext, pending := s.pending }

/-- The intake link at a tracking reset (R161). -/
def Ilc.trackingReset (i : Ilc) : Ilc :=
  { i with
    link := .offline
    assembler := .hunt
    badRun := 0
    silence := 0
    syncTimer := 0
    syncFrames := 0
    beaconTimer := 0
    tx := i.tx.dropWaiting
    e := 0
    l := 0 }

/-- RESET TRACKING, its steps as one event (R171). -/
def State.trackingReset (s : State) : State :=
  let s := s.loseAll.clearOutlets
  let s := { s with ilc := s.ilc.trackingReset }.rebase
  { s with bpu := { s.bpu with errorLevel := 0 }, service := .standby }

/-- The answer of a service request carried out: the service state after the event (R188). -/
def State.serviceAnswer (s : State) : State × Response := (s, okWith (be 1 s.service.code))

/-- START SERVICE (R163). -/
def State.startService (s : State) : State × Response :=
  match s.service with
  | .serving => s.serviceAnswer
  | .draining => { s with service := .serving }.serviceAnswer
  | .standby =>
    if s.rd.planValid = false then (s, refuse .noPlan)
    else if 16 ≤ s.bpu.errorLevel then (s, refuse .range)
    else { s with service := .serving }.serviceAnswer
  | .failsafe =>
    if s.rd.planValid = false then (s, refuse .noPlan)
    else if 16 ≤ s.bpu.errorLevel then (s, refuse .range)
    else { s.rebase with service := .serving }.serviceAnswer

/-- STOP SERVICE (R164, R166). -/
def State.stopService (s : State) : State × Response :=
  match s.service with
  | .serving => ({ s with service := .draining }.drainCheck).serviceAnswer
  | .draining => s.serviceAnswer
  | .standby => s.serviceAnswer
  | .failsafe => { s.rebase with service := .standby }.serviceAnswer

/-! ### Commands -/

/-- POWER_ON_RESET (R207). -/
def execPowerOnReset (csLow : Bool) (s : State) : Outcome := .next (s.powerOn csLow)

/-- START_SERVICE (R163, R188). -/
def execStartService (s : State) : Outcome := serve .startService State.startService s

/-- STOP_SERVICE (R164, R188). -/
def execStopService (s : State) : Outcome := serve .stopService State.stopService s

/-- RESET_TRACKING (R171, R188). -/
def execResetTracking (s : State) : Outcome := serve .resetTracking (fun s => s.trackingReset.serviceAnswer) s

end Sys2Proof.Machine
end

