-- ==== Sys2Proof/Machine/PortFrames.lean ====
section
/-! DEFINITION. The transactions of the supervisor port (R175 to R180): a read, a request frame as it is judged, and the end of the reset hold. -/

namespace Sys2Proof.Machine

/-- A request carried out by its own meaning (R181, R182). -/
def carryOut (c : Instr) (s : State) : Outcome :=
  match c with
  | .queryStatus => execQueryStatus s
  | .setParam n v => execSetParam n v s
  | .getParam n => execGetParam n s
  | .setOutletField o f v => execSetOutletField o f v s
  | .getOutlet o => execGetOutlet o s
  | .outletEnable o => execOutletEnable o s
  | .outletDisable o => execOutletDisable o s
  | .outletClose o => execOutletClose o s
  | .reopen o => execReopen o s
  | .clearFault o => execClearFault o s
  | .testStroke o => execTestStroke o s
  | .putClass c w h a ah => execPutClass c w h a ah s
  | .putRoute i k f ch => execPutRoute i k f ch s
  | .getPlanEntry b t i => execGetPlanEntry b t i s
  | .commitPlan => execCommitPlan s
  | .readPlanStatus => execReadPlanStatus s
  | .clearPlanStatus => execClearPlanStatus s
  | .startService => execStartService s
  | .stopService => execStopService s
  | .resetTracking => execResetTracking s
  | .findTrack t => execFindTrack t s
  | .nextTrack t => execNextTrack t s
  | .findAt d => execFindAt d s
  | .amendTrack t x c k => execAmendTrack t x c k s
  | .withdrawTrack t => execWithdrawTrack t s
  | .readTallies g i c => execReadTallies g i c s
  | .setAttention e m => execSetAttention e m s
  | .ackAttention x => execAckAttention x s
  | _ => .next s

/-- A read transaction in which `n` bytes are clocked after the read code (R179): the response from its first byte, all ones beyond it or from an
empty buffer; READY is released and the response stays. While the reset hold is set no transaction begins (R175).
DESIGN CHOICE (log 32): R180 clears the hold at the next rising edge of SP_CS_N, and a whole transaction sent during the hold ends in one; the model leaves the hold
set until RESET_HOLD_CLEARED, which alone stands for that edge. -/
def State.readTransaction (s : State) (n : Nat) : State :=
  if s.sp.resetHold then s
  else { s with sp := { s.sp with ready := false, miso := 0xFF :: ((s.sp.response.map Response.frame).getD []).take n } }

/-- One transaction of the port from its whole bytes and the bits left over (R175, R176, R177): fewer than eight bits are no transaction, the read code
opens a read, and a request is judged and taken at its end. One that comes while the reset hold is set is ignored and leaves the hold set (log 32). -/
def State.transaction (s : State) (bytes : List Byte) (extraBits : Nat) : Outcome :=
  match bytes with
  | [] => .next s
  | code :: rest =>
    if code = readCode then .next (s.readTransaction rest.length)
    else if s.sp.resetHold then .next s
    else
      match judgePortFrame bytes extraBits with
      | .bad => .next (s.respond bytes (refuse .badFrame))
      | .unknown => .next (s.respond bytes (refuse .unknownRequest))
      | .request c => carryOut c s

/-! ### Commands -/

/-- READ_RESPONSE (R179). -/
def execReadResponse (n : Nat) (s : State) : Outcome := .next (s.readTransaction n)

/-- BAD_PORT_FRAME (R177). The bytes are judged as the part judges them, so a frame that is not bad is taken as what it is (log 8). -/
def execBadPortFrame (bytes : List Byte) (extraBits : Nat) (s : State) : Outcome := s.transaction bytes extraBits

/-- RESET_HOLD_CLEARED (R180): the rising edge of SP_CS_N, which no other command stands for (log 32). -/
def execResetHoldCleared (s : State) : Outcome := .next { s with sp := { s.sp with resetHold := false } }

end Sys2Proof.Machine
end

