-- ==== Sys2Proof/Machine/Belt.lean ====
section
/-! DEFINITION. The Belt Position Unit: encoder samples, quadrature steps and the speed window (spec/01), and the commands that carry them. -/

namespace Sys2Proof.Machine

/-! ### Steps -/

/-- The place of an encoder state in the forward cycle (0,0), (1,0), (1,1), (0,1) (spec/01, Quadrature decoding). -/
def encoderPlace (a b : Bool) : Nat :=
  match a, b with
  | false, false => 0
  | true, false => 1
  | true, true => 2
  | false, true => 3

/-- What a change of encoder state is (R3, R4). -/
inductive EncoderStep where
  | still | forward | reverse | illegal
  deriving DecidableEq, Repr

/-- A change of encoder state judged, ENC_INVERT taken into account (R3, R4). -/
def judgeStep (invert a₀ b₀ a₁ b₁ : Bool) : EncoderStep :=
  match (encoderPlace a₁ b₁ + 4 - encoderPlace a₀ b₀) % 4 with
  | 0 => .still
  | 1 => if invert then .reverse else .forward
  | 3 => if invert then .forward else .reverse
  | _ => .illegal

/-- A forward tick (R5, R7, R8, R12), and the waypoints it reaches (R18). -/
def State.tickForward (s : State) : State :=
  let p := s.bpu.position + 1
  let hwm := if atOrBeyond p s.bpu.hwm then p else s.bpu.hwm
  ({ s with bpu := { s.bpu with position := p, hwm := hwm, windowCount := s.bpu.windowCount + 1 } }).judgeExcess.reachWaypoints

/-- A reverse tick (R5, R7, R8, R12); it reaches no waypoint (R18). -/
def State.tickReverse (s : State) : State :=
  ({ s with bpu := { s.bpu with position := s.bpu.position - 1, windowCount := s.bpu.windowCount - 1 } }).judgeExcess

/-- An illegal step (R4): ENCODER FAULT is raised when the error level goes from 15 to 16. -/
def State.illegalStep (s : State) : State :=
  let level := s.bpu.errorLevel
  let s := { s with bpu := { s.bpu with errorLevel := min 31 (level + 1), windowIllegal := true } }
  if level = 15 then s.encoderFault else s

/-- A step of the decoder (R3, R4). -/
def State.encoderStep (s : State) : EncoderStep → State
  | .still => s
  | .forward => s.tickForward
  | .reverse => s.tickReverse
  | .illegal => s.illegalStep

/-- The filters of both lines after a sample; the decoder acts when both lines had left acquisition before it (R2, R3). -/
def State.encoderLevels (s : State) (fa fb : Filter) : State :=
  let a₀ := s.bpu.encA.accepted
  let b₀ := s.bpu.encB.accepted
  let s := { s with bpu := { s.bpu with encA := fa, encB := fb } }
  match a₀, b₀, fa.accepted, fb.accepted with
  | some a₀, some b₀, some a₁, some b₁ => s.encoderStep (judgeStep s.params.encInvert a₀ b₀ a₁ b₁)
  | _, _, _, _ => s

/-- One sample of ENC_A and ENC_B (R1, R2, R3). Four clock periods pass; the divider's count stops at MS_DIV (log 14). -/
def State.sampleEncoder (s : State) (a b : Bool) : State :=
  let n := s.params.encFilter
  let s := { s with
    time := { divider := min s.params.msDiv (s.time.divider + 4) }
    pins := { s.pins with encA := a, encB := b } }
  s.encoderLevels (s.bpu.encA.sampleAccept n a) (s.bpu.encB.sampleAccept n b)

/-- The sample at which the filters accept the levels `a` and `b` (R3; log 4). -/
def State.acceptEncoder (s : State) (a b : Bool) : State :=
  let s := { s with pins := { s.pins with encA := a, encB := b } }
  s.encoderLevels (s.bpu.encA.accept a) (s.bpu.encB.accept b)

/-! ### The speed window and the stall -/

/-- M from the window count (R12). -/
def windowM (count : Int) : Nat := min 4095 count.toNat

/-- V after a window of M ticks (R13). -/
def nextV (v m : Nat) : Nat := if m = 0 ∧ v < 16 then 0 else v - v / 8 + 2 * m

/-- The expiry of the speed window (R10, R12, R13). -/
def State.expireWindow (s : State) : State :=
  { s with bpu := { s.bpu with
    v := nextV s.bpu.v (windowM s.bpu.windowCount)
    errorLevel := if s.bpu.windowIllegal then s.bpu.errorLevel else s.bpu.errorLevel - 1
    windowIllegal := false
    windowTimer := 0
    windowCount := 0 } }

/-- A stall that has reached STALL_TIME raises BELT, once (R16). -/
def State.raiseStall (s : State) : State := { s with bpu := { s.bpu with stallRaised := true } }.raise .belt

/-! ### Commands -/

/-- ENCODER_SAMPLE (R1). -/
def execEncoderSample (a b : Bool) (s : State) : Outcome := .next (s.sampleEncoder a b)

/-- ENCODER_STEP (R3, R4). -/
def execEncoderStep (a b : Bool) (s : State) : Outcome := .next (s.acceptEncoder a b)

end Sys2Proof.Machine
end

