-- ==== Sys2Proof/Machine/Tick.lean ====
section
/-! DEFINITION. The millisecond tick, the events it brings about, and the commands that take them (R10 to R16, R92 to R105, R112 to R116, R128,
R142, R144, R147). A tick counts every timer and samples every filtered line, and latches in `due` the events that come about at it. Each is a
step of its own row: a command takes it, and what no command has taken is taken, in the order of `allEvents`, before the next tick counts
(log 2). -/

namespace Sys2Proof.Machine

/-! ### Counting -/

/-- The debounce of the SWAP button, fixed at 30 ms (R96). -/
def swapDebounce : Nat := 30

/-- A filter whose line has no step for a return to `false` (the eye clearing, the button released): that level is accepted within the tick. -/
def Filter.sampleRelease (n : Nat) (x : Bool) (f : Filter) : Filter :=
  let g := f.sample n x
  if x = false ∧ g.accepted = some true ∧ g.reached n = true then g.accept false else g

/-- The eye's level that the chute timers count by at a tick (R101, R104, R105; log 10): the level accepted before the tick, or the first level
when the tick ends the acquisition. -/
def eyeLevel (before after : Filter) : Option Bool :=
  match before.accepted with
  | none => after.accepted
  | some b => some b

/-- One outlet at a millisecond tick: its four line filters, the chute timers, and the timers of its paddle sequencer (R92, R96, R101, R104, R105,
R112, R113, R114, R126). -/
def Outlet.tick (p : Params) (home eye rack swap : Bool) (x : Outlet) : Outlet :=
  let eyeFilter := x.eyeFilter.sampleRelease p.eyeFilter eye
  let level := eyeLevel x.eyeFilter eyeFilter
  { x with
    homeFilter := x.homeFilter.sample p.eyeFilter home
    eyeFilter := eyeFilter
    rackFilter := x.rackFilter.sample p.rackDebounce rack
    buttonFilter := x.buttonFilter.sampleRelease swapDebounce swap
    blockTimer := if level = some true then min 10000 (x.blockTimer + 1) else 0
    clearTimer := if level = some false then min 5000 (x.clearTimer + 1) else 0
    strokeTimer := if x.paddle = .stroke then min 255 (x.strokeTimer + 1) else x.strokeTimer
    recoverTimer := if x.paddle = .recover then min 1000 (x.recoverTimer + 1) else x.recoverTimer
    confirmTimer := if x.strokeSet.isSome then min 2000 (x.confirmTimer + 1) else x.confirmTimer }

/-- The link timers at a tick (R142, R144, R147). -/
def Ilc.tick (i : Ilc) : Ilc :=
  match i.link with
  | .offline => i
  | .syncing => { i with syncTimer := min 1000 (i.syncTimer + 1), beaconTimer := min 50 (i.beaconTimer + 1) }
  | .active => { i with silence := min 501 (i.silence + 1), beaconTimer := min 50 (i.beaconTimer + 1) }

/-- The window timer and the stall detection at a tick (R12, R16). The first tick after power-on is the first of W that the first window counts, and what the
encoder does before it enters that window (R21; log 29). -/
def Bpu.tick (b : Bpu) (driveOn : Bool) : Bpu :=
  let stalled := driveOn = true ∧ b.v = 0
  { b with
    windowTimer := b.windowTimer + 1
    stallTimer := if stalled then min 10000 (b.stallTimer + 1) else 0
    stallRaised := if stalled then b.stallRaised else false }

/-- Every timer and filter at one tick, with the lines as sampled. -/
def State.count (s : State) (lines : LineSample) : State :=
  let s := { s with
    time := { divider := 0 }
    pins := { s.pins with lines := lines }
    bpu := s.bpu.tick lines.driveOn
    oc := { lampCycle := (s.oc.lampCycle + 1) % 1000 }
    ilc := s.ilc.tick }
  s.mapOutlets (fun o =>
    Outlet.tick s.params (lines.home.getLsbD o.val) (lines.eye.getLsbD o.val) (lines.rack.getLsbD o.val) (lines.swap.getLsbD o.val))

/-! ### Events -/

/-- Every event that a tick may bring about, in the order in which those that no command takes are taken (log 2). -/
def allEvents : List Event :=
  [.windowExpiry, .stall] ++ outletNos.map Event.homeLevel ++ outletNos.map Event.rackRemoval ++ outletNos.map Event.rackArrival ++ outletNos.map Event.swapPress
    ++ outletNos.map Event.passage ++ outletNos.map Event.strokeEnd ++ outletNos.map Event.recoveryEnd ++ outletNos.map Event.homeTimeout
    ++ outletNos.map Event.confirmExpiry ++ outletNos.map Event.chuteBlocked ++ outletNos.map Event.chuteClear ++ [.syncTimeout, .linkSilence, .beacon]

/-- The condition by which an event comes about at a tick: its timer or filter has reached its figure. -/
def State.holds (s : State) : Event → Bool
  | .windowExpiry => s.params.window ≤ s.bpu.windowTimer
  | .stall => s.params.stallTime ≤ s.bpu.stallTimer && !s.bpu.stallRaised
  | .homeLevel o => (s.outlet o).homeFilter.reached s.params.eyeFilter
  | .rackArrival o => (s.outlet o).rackFilter.accepted == some false && (s.outlet o).rackFilter.reached s.params.rackDebounce
  | .rackRemoval o => (s.outlet o).rackFilter.accepted == some true && (s.outlet o).rackFilter.reached s.params.rackDebounce
  | .swapPress o => (s.outlet o).buttonFilter.accepted == some false && (s.outlet o).buttonFilter.reached swapDebounce
  | .passage o => (s.outlet o).eyeFilter.accepted == some false && (s.outlet o).eyeFilter.reached s.params.eyeFilter
  | .strokeEnd o => (s.outlet o).paddle == .stroke && (s.outlet o).strokeFigure ≤ (s.outlet o).strokeTimer
  | .recoveryEnd o => (s.outlet o).recovered
  | .homeTimeout o => (s.outlet o).homeLate
  | .confirmExpiry o => (s.outlet o).strokeSet.isSome && (s.outlet o).windowFigure ≤ (s.outlet o).confirmTimer
  | .chuteBlocked o => !(s.outlet o).blocked && s.params.chuteBlockTime ≤ (s.outlet o).blockTimer
  | .chuteClear o => (s.outlet o).blocked && s.params.chuteClearTime ≤ (s.outlet o).clearTimer
  | .syncTimeout => s.ilc.link == .syncing && s.params.syncTimeout ≤ s.ilc.syncTimer && s.ilc.syncFrames < 2
  | .linkSilence => s.ilc.link == .active && s.params.linkSilence < s.ilc.silence
  | .beacon => s.ilc.link != .offline && s.params.beaconPeriod ≤ s.ilc.beaconTimer

/-- The effect of an event. -/
def State.perform (s : State) : Event → State
  | .windowExpiry => s.expireWindow
  | .stall => s.raiseStall
  | .homeLevel o => s.acceptHome o ((s.outlet o).homeFilter.accepted == some false)
  | .rackArrival o => s.rackArrives o (vget s.pins.lines.keys o)
  | .rackRemoval o => s.rackRemoved o
  | .swapPress o => s.buttonPresses o
  | .passage o => s.eyeBlocks o
  | .strokeEnd o => s.endStroke o
  | .recoveryEnd o => s.endRecovery o
  | .homeTimeout o => s.enterFaulted o
  | .confirmExpiry o =>
    match (s.outlet o).strokeSet with
    | some set => s.miss o set
    | none => s
  | .chuteBlocked o => s.blockChute o
  | .chuteClear o => s.clearChute o
  | .syncTimeout => s.goOffline
  | .linkSilence => s.loseLink
  | .beacon => s.composeBeacon

/-- An event no longer waiting to be taken. -/
def State.dropDue (s : State) (e : Event) : State := { s with due := s.due.erase e }

/-- Whether an event that a tick has brought about still stands when it is taken: nothing taken since has ended the timer's or the filter's run or left the
state that the rule names. A parameter written since is compared at the next tick (R16, R92, R101, R104, R105, R144, R147, R159), so no parameter
is read here. -/
def State.stands (s : State) : Event → Bool
  | .windowExpiry => 0 < s.bpu.windowTimer
  | .stall => !s.bpu.stallRaised
  | .homeLevel o => (s.outlet o).homeFilter.accepted.isSome && 0 < (s.outlet o).homeFilter.count
  | .rackArrival o => (s.outlet o).rackFilter.accepted == some false && 0 < (s.outlet o).rackFilter.count
  | .rackRemoval o => (s.outlet o).rackFilter.accepted == some true && 0 < (s.outlet o).rackFilter.count
  | .swapPress o => (s.outlet o).buttonFilter.accepted == some false && 0 < (s.outlet o).buttonFilter.count
  | .passage o => (s.outlet o).eyeFilter.accepted == some false && 0 < (s.outlet o).eyeFilter.count
  | .strokeEnd o => (s.outlet o).paddle == .stroke && (s.outlet o).strokeFigure ≤ (s.outlet o).strokeTimer
  | .recoveryEnd o => (s.outlet o).recovered
  | .homeTimeout o => (s.outlet o).homeLate
  | .confirmExpiry o => (s.outlet o).strokeSet.isSome && (s.outlet o).windowFigure ≤ (s.outlet o).confirmTimer
  | .chuteBlocked o => !(s.outlet o).blocked
  | .chuteClear o => (s.outlet o).blocked
  | .syncTimeout => s.ilc.link == .syncing && 0 < s.ilc.syncTimer && s.ilc.syncFrames < 2
  | .linkSilence => s.ilc.link == .active && 0 < s.ilc.silence
  | .beacon => s.ilc.link != .offline && 0 < s.ilc.beaconTimer

/-- An event taken, when the last tick has brought it about and it still stands; otherwise nothing has come about (log 3). -/
def State.takeDue (s : State) (e : Event) : State := if e ∈ s.due ∧ s.stands e = true then (s.dropDue e).perform e else s

/-- The events that the last tick has left, taken from the first, at most `fuel` of them: one that no longer stands is dropped. -/
def State.settleUpTo (s : State) : Nat → State
  | 0 => { s with due := [] }
  | fuel + 1 =>
    match s.due with
    | [] => s
    | e :: _ => ((if s.stands e then s.takeDue e else s.dropDue e) : State).settleUpTo fuel

/-- What is left of the last tick's events, taken before the next tick (log 2). A HOME level accepted here may bring its outlet's recovery end or
home timeout about, which joins the list at its end, so twice the list is enough. -/
def State.settle (s : State) : State := s.settleUpTo (2 * s.due.length)

/-- One millisecond tick (R11): the leftover events, the counting, and the events that come about. -/
def State.tickMs (s : State) (lines : LineSample) : State :=
  let s := s.settle.count lines
  { s with due := allEvents.filter s.holds }

/-! ### Commands -/

/-- MILLISECOND_TICK (R11). -/
def execMillisecondTick (lines : LineSample) (s : State) : Outcome := .next (s.tickMs lines)

/-- SPEED_WINDOW_EXPIRY (R12). -/
def execSpeedWindowExpiry (s : State) : Outcome := .next (s.takeDue .windowExpiry)

/-- STALL (R16). -/
def execStall (s : State) : Outcome := .next (s.takeDue .stall)

/-- STROKE_END (R113). -/
def execStrokeEnd (o : OutletNo) (s : State) : Outcome := .next (s.takeDue (.strokeEnd o))

/-- RECOVERY_END (R114). -/
def execRecoveryEnd (o : OutletNo) (s : State) : Outcome := .next (s.takeDue (.recoveryEnd o))

/-- HOME_TIMEOUT (R115). -/
def execHomeTimeout (o : OutletNo) (s : State) : Outcome := .next (s.takeDue (.homeTimeout o))

/-- CONFIRM_WINDOW_EXPIRY (R128). -/
def execConfirmWindowExpiry (o : OutletNo) (s : State) : Outcome := .next (s.takeDue (.confirmExpiry o))

/-- CHUTE_BLOCKED (R104). -/
def execChuteBlocked (o : OutletNo) (s : State) : Outcome := .next (s.takeDue (.chuteBlocked o))

/-- CHUTE_CLEAR (R105). -/
def execChuteClear (o : OutletNo) (s : State) : Outcome := .next (s.takeDue (.chuteClear o))

/-- SYNC_TIMEOUT (R142). -/
def execSyncTimeout (s : State) : Outcome := .next (s.takeDue .syncTimeout)

/-- LINK_SILENCE_TIMEOUT (R144). -/
def execLinkSilenceTimeout (s : State) : Outcome := .next (s.takeDue .linkSilence)

/-- BEACON (R147). -/
def execBeacon (s : State) : Outcome := .next (s.takeDue .beacon)

/-- HOME_LEVEL_ACCEPTED (R112): the filter accepts a level that is not the accepted one (log 4). -/
def execHomeLevelAccepted (o : OutletNo) (home : Bool) (s : State) : Outcome :=
  if (s.outlet o).homeFilter.accepted = some home then .next s else .next ((s.dropDue (.homeLevel o)).acceptHome o home)

/-- RACK_ARRIVAL (R93): the filter accepts present, and the KEY lines read `key` (log 4). -/
def execRackArrival (o : OutletNo) (key : KeyNo) (s : State) : Outcome :=
  if (s.outlet o).rackFilter.accepted = some true then .next s
  else
    let s := s.dropDue (.rackArrival o)
    .next ({ s with pins := { s.pins with lines := { s.pins.lines with keys := vset s.pins.lines.keys o key } } }.rackArrives o key)

/-- RACK_REMOVAL (R94): the filter accepts absent (log 4). -/
def execRackRemoval (o : OutletNo) (s : State) : Outcome :=
  if (s.outlet o).rackFilter.accepted = some true then .next ((s.dropDue (.rackRemoval o)).rackRemoved o) else .next s

/-- SWAP_PRESS (R96): the filter accepts pressed (log 4). -/
def execSwapPress (o : OutletNo) (s : State) : Outcome :=
  if (s.outlet o).buttonFilter.accepted = some true then .next s else .next ((s.dropDue (.swapPress o)).buttonPresses o)

/-- PASSAGE (R102): the filter accepts blocked (log 4). -/
def execPassage (o : OutletNo) (s : State) : Outcome :=
  if (s.outlet o).eyeFilter.accepted = some true then .next s else .next ((s.dropDue (.passage o)).eyeBlocks o)

end Sys2Proof.Machine
end

