-- ==== Sys2Proof/Machine/Dispatch.lean ====
section
/-! DEFINITION. One arm for each command. -/

namespace Sys2Proof.Machine

def exec (i : Instr) (s : State) : Host.Outcome State Fault Refusal :=
  match i with
  | .powerOnReset csLow => Sys2Proof.Machine.execPowerOnReset csLow s
  | .millisecondTick lines => Sys2Proof.Machine.execMillisecondTick lines s
  | .encoderStep a b => Sys2Proof.Machine.execEncoderStep a b s
  | .speedWindowExpiry => Sys2Proof.Machine.execSpeedWindowExpiry s
  | .stall => Sys2Proof.Machine.execStall s
  | .strokeEnd o => Sys2Proof.Machine.execStrokeEnd o s
  | .recoveryEnd o => Sys2Proof.Machine.execRecoveryEnd o s
  | .homeTimeout o => Sys2Proof.Machine.execHomeTimeout o s
  | .homeLevelAccepted o home => Sys2Proof.Machine.execHomeLevelAccepted o home s
  | .confirmWindowExpiry o => Sys2Proof.Machine.execConfirmWindowExpiry o s
  | .rackArrival o key => Sys2Proof.Machine.execRackArrival o key s
  | .rackRemoval o => Sys2Proof.Machine.execRackRemoval o s
  | .swapPress o => Sys2Proof.Machine.execSwapPress o s
  | .passage o => Sys2Proof.Machine.execPassage o s
  | .chuteBlocked o => Sys2Proof.Machine.execChuteBlocked o s
  | .chuteClear o => Sys2Proof.Machine.execChuteClear o s
  | .badFrame cause => Sys2Proof.Machine.execBadFrame cause s
  | .join level => Sys2Proof.Machine.execJoin level s
  | .keepalive => Sys2Proof.Machine.execKeepalive s
  | .notice number stamp length cls key => Sys2Proof.Machine.execNotice number stamp length cls key s
  | .revise number selClass selKey cls key => Sys2Proof.Machine.execRevise number selClass selKey cls key s
  | .syncTimeout => Sys2Proof.Machine.execSyncTimeout s
  | .linkSilenceTimeout => Sys2Proof.Machine.execLinkSilenceTimeout s
  | .beacon => Sys2Proof.Machine.execBeacon s
  | .beaconTransmitDone => Sys2Proof.Machine.execBeaconTransmitDone s
  | .readResponse n => Sys2Proof.Machine.execReadResponse n s
  | .queryStatus => Sys2Proof.Machine.execQueryStatus s
  | .setParam number value => Sys2Proof.Machine.execSetParam number value s
  | .getParam number => Sys2Proof.Machine.execGetParam number s
  | .setOutletField outlet field value => Sys2Proof.Machine.execSetOutletField outlet field value s
  | .getOutlet outlet => Sys2Proof.Machine.execGetOutlet outlet s
  | .outletEnable outlet => Sys2Proof.Machine.execOutletEnable outlet s
  | .outletDisable outlet => Sys2Proof.Machine.execOutletDisable outlet s
  | .outletClose outlet => Sys2Proof.Machine.execOutletClose outlet s
  | .reopen outlet => Sys2Proof.Machine.execReopen outlet s
  | .clearFault outlet => Sys2Proof.Machine.execClearFault outlet s
  | .testStroke outlet => Sys2Proof.Machine.execTestStroke outlet s
  | .putClass cls weight head audit auditHead => Sys2Proof.Machine.execPutClass cls weight head audit auditHead s
  | .putRoute index kind field chain => Sys2Proof.Machine.execPutRoute index kind field chain s
  | .getPlanEntry bank table index => Sys2Proof.Machine.execGetPlanEntry bank table index s
  | .commitPlan => Sys2Proof.Machine.execCommitPlan s
  | .readPlanStatus => Sys2Proof.Machine.execReadPlanStatus s
  | .clearPlanStatus => Sys2Proof.Machine.execClearPlanStatus s
  | .startService => Sys2Proof.Machine.execStartService s
  | .stopService => Sys2Proof.Machine.execStopService s
  | .resetTracking => Sys2Proof.Machine.execResetTracking s
  | .findTrack tag => Sys2Proof.Machine.execFindTrack tag s
  | .nextTrack tag => Sys2Proof.Machine.execNextTrack tag s
  | .findAt d => Sys2Proof.Machine.execFindAt d s
  | .amendTrack tag sel cls key => Sys2Proof.Machine.execAmendTrack tag sel cls key s
  | .withdrawTrack tag => Sys2Proof.Machine.execWithdrawTrack tag s
  | .readTallies group index clear => Sys2Proof.Machine.execReadTallies group index clear s
  | .setAttention enables lineMap => Sys2Proof.Machine.execSetAttention enables lineMap s
  | .ackAttention sel => Sys2Proof.Machine.execAckAttention sel s
  | .encoderSample a b => Sys2Proof.Machine.execEncoderSample a b s
  | .receivedByte levels => Sys2Proof.Machine.execReceivedByte levels s
  | .badPortFrame bytes extraBits => Sys2Proof.Machine.execBadPortFrame bytes extraBits s
  | .resetHoldCleared => Sys2Proof.Machine.execResetHoldCleared s

end Sys2Proof.Machine
end

