-- ==== Sys2Proof/Safety.lean ====
section
/-! DEFINITION. The laws that the spec states of every state of the part, in the terms that the statements use. -/

namespace Sys2Proof.Machine

/-- Fill and committed units fit in the capacity (R76: "for every outlet, fill + committed never exceeds capacity"). -/
abbrev Outlet.fits (x : Outlet) : Prop := x.fill + x.committed ≤ x.fields.capacity

/-- The capacity law of every outlet (R76, R88, R100, R103). -/
abbrev State.capacityLaw (s : State) : Prop := ∀ o : OutletNo, (s.outlet o).fits

/-- The number of paddles in STROKE. -/
def State.strokeCount (s : State) : Nat := outletNos.countP (fun o => (s.outlet o).paddle == .stroke)

/-- The stroke slots in use are the paddles in STROKE (R122). -/
abbrev State.slotLaw (s : State) : Prop := s.aa.slotsInUse = s.strokeCount

/-- No two live records stand in one slot (R23). -/
abbrev State.tableLaw (s : State) : Prop := (s.tc.records.map (fun r => r.slot)).Nodup

/-- The reverse excess says whether the position lies further behind the HWM than REVERSE_ALLOW (R8). -/
abbrev State.excessLaw (s : State) : Prop := s.bpu.reverseExcess = decide (s.params.reverseAllow < ahead s.bpu.hwm s.bpu.position)

/-- In STANDBY and FAILSAFE no record is live and the credit outstanding is zero (R162). -/
abbrev State.restLaw (s : State) : Prop := s.service = .standby ∨ s.service = .failsafe → s.tc.records = [] ∧ s.ilc.l = s.ilc.e

/-- The credit outstanding never exceeds the number of FREE slots while the link is ACTIVE (R148), and there is none out of ACTIVE (R140, R146). -/
abbrev State.creditLaw (s : State) : Prop := if s.ilc.link = .active then s.credit ≤ s.freeCount else s.ilc.l = s.ilc.e

/-- Every global parameter lies within its range (R184, spec/11). -/
abbrev Params.inRange (p : Params) : Prop :=
  (1000 ≤ p.msDiv ∧ p.msDiv ≤ 65535) ∧ (1 ≤ p.encFilter ∧ p.encFilter ≤ 15) ∧ (20 ≤ p.window ∧ p.window ≤ 200)
    ∧ p.reverseAllow ≤ 65535 ∧ (100 ≤ p.stallTime ∧ p.stallTime ≤ 10000) ∧ p.clearance ≤ 255 ∧ p.q ≤ 1048575 ∧ p.dEnd ≤ 1048575
    ∧ (8 ≤ p.armMargin ∧ p.armMargin ≤ 1023) ∧ p.auditRate ≤ 11 ∧ (20 ≤ p.rackDebounce ∧ p.rackDebounce ≤ 1000)
    ∧ (1 ≤ p.eyeFilter ∧ p.eyeFilter ≤ 20) ∧ (100 ≤ p.chuteBlockTime ∧ p.chuteBlockTime ≤ 10000)
    ∧ (100 ≤ p.chuteClearTime ∧ p.chuteClearTime ≤ 5000) ∧ (1 ≤ p.airBudget ∧ p.airBudget ≤ 8) ∧ (1 ≤ p.missLimit ∧ p.missLimit ≤ 15)
    ∧ (10 ≤ p.syncTimeout ∧ p.syncTimeout ≤ 1000) ∧ (5 ≤ p.linkSilence ∧ p.linkSilence ≤ 500)
    ∧ (1 ≤ p.beaconPeriod ∧ p.beaconPeriod ≤ 50) ∧ p.creditMargin ≤ 32 ∧ (64 ≤ p.noticeAge ∧ p.noticeAge ≤ 65535)

/-- Every field of an outlet record lies within its range (R86). -/
abbrev OutletFields.inRange (f : OutletFields) : Prop :=
  f.position ≤ 1048575 ∧ f.latency ≤ 255 ∧ (-128 ≤ f.trim ∧ f.trim ≤ 127) ∧ (10 ≤ f.strokeTime ∧ f.strokeTime ≤ 255) ∧ f.recoverTime ≤ 255
    ∧ (10 ≤ f.homeTimeout ∧ f.homeTimeout ≤ 1000) ∧ (20 ≤ f.confirmWindow ∧ f.confirmWindow ≤ 2000) ∧ (16 ≤ f.maxSpan ∧ f.maxSpan ≤ 4095)
    ∧ f.lateTolerance ≤ 255 ∧ (1 ≤ f.capacity ∧ f.capacity ≤ 1023) ∧ f.warnLevel ≤ 1023 ∧ f.level ≤ 15

/-- The parameters and the fields of every outlet are in range (R86, R184), the smoothed speed is at most 65,520 (R13), the encoder error level
at most 31 (R4), and the miss runs at most 15 (R128). -/
abbrev State.rangeLaw (s : State) : Prop :=
  s.params.inRange ∧ (∀ o : OutletNo, (s.outlet o).fields.inRange ∧ (s.outlet o).missRun ≤ 15) ∧ s.bpu.v ≤ 65520 ∧ s.bpu.errorLevel ≤ 31

/-- Every tally of a group at most that of another. -/
abbrev KeyTally.le (a b : KeyTally) : Prop :=
  a.delivered ≤ b.delivered ∧ a.ended ≤ b.ended ∧ a.withdrawn ≤ b.withdrawn ∧ a.lost ≤ b.lost ∧ a.racks ≤ b.racks

/-- Every tally of a group at most that of another. -/
abbrev OutletTally.le (a b : OutletTally) : Prop :=
  a.items ≤ b.items ∧ a.units ≤ b.units ∧ a.strokes ≤ b.strokes ∧ a.misses ≤ b.misses ∧ a.abandoned ≤ b.abandoned ∧ a.strays ≤ b.strays
    ∧ a.racks ≤ b.racks

/-- Every tally of a group at most that of another. -/
abbrev DeviceTally.le (a b : DeviceTally) : Prop :=
  a.badFrames ≤ b.badFrames ∧ a.outOfOrder ≤ b.outOfOrder ∧ a.overruns ≤ b.overruns ∧ a.refused ≤ b.refused ∧ a.stale ≤ b.stale
    ∧ a.gapTotal ≤ b.gapTotal ∧ a.unmatched ≤ b.unmatched ∧ a.planChecks ≤ b.planChecks ∧ a.trackLosses ≤ b.trackLosses
    ∧ a.encoderFaults ≤ b.encoderFaults

/-- Every tally of a group is within 0 to 16,777,215 (R195). -/
abbrev KeyTally.bounded (a : KeyTally) : Prop :=
  a.le { delivered := 16777215, ended := 16777215, withdrawn := 16777215, lost := 16777215, racks := 16777215 }

/-- Every tally of a group is within 0 to 16,777,215 (R195). -/
abbrev OutletTally.bounded (a : OutletTally) : Prop :=
  a.le { items := 16777215, units := 16777215, strokes := 16777215, misses := 16777215, abandoned := 16777215, strays := 16777215, racks := 16777215 }

/-- Every tally of a group is within 0 to 16,777,215 (R195). -/
abbrev DeviceTally.bounded (a : DeviceTally) : Prop :=
  a.le { badFrames := 16777215, outOfOrder := 16777215, overruns := 16777215, refused := 16777215, stale := 16777215, gapTotal := 16777215,
         unmatched := 16777215, planChecks := 16777215, trackLosses := 16777215, encoderFaults := 16777215 }

/-- Every tally is within 0 to 16,777,215 (R195). -/
abbrev Tau.bounded (t : Tau) : Prop :=
  (∀ k : KeyNo, (vget t.keys k).bounded) ∧ (∀ o : OutletNo, (vget t.outlets o).bounded) ∧ t.device.bounded

/-- No tally of `a` is above that of `b`. -/
abbrev Tau.le (a b : Tau) : Prop :=
  (∀ k : KeyNo, (vget a.keys k).le (vget b.keys k)) ∧ (∀ o : OutletNo, (vget a.outlets o).le (vget b.outlets o)) ∧ a.device.le b.device

/-! ### The books: records, routes, stroke sets and requests agree -/

/-- A live record in a state at an outlet. -/
abbrev Record.isAt (r : Record) (st : RecordState) (o : OutletNo) : Prop := r.state = st ∧ r.route.map (·.outlet) = some o

/-- The units that a record's route holds at an outlet (R26). -/
def Record.unitsAt (r : Record) (o : OutletNo) : Nat :=
  match r.route with
  | some route => if route.outlet = o then route.units else 0
  | none => 0

/-- The units that the routes of the live records hold at an outlet, of those records that `p` picks (R26). -/
def State.unitsAt (s : State) (o : OutletNo) (p : Record → Bool) : Nat := ((s.tc.records.filter p).map (fun r => r.unitsAt o)).sum

/-- The bookkeeping of the table, the outlets and the paddles: the laws that R26, R35, R38, R39, R118 and R126 state of every state between two events. -/
structure State.booksLaw (s : State) : Prop where
  /-- No two live records stand in one slot (R23). -/
  slots : s.tableLaw
  /-- A record holds its route exactly when it is ROUTED, DUE or FIRED (R26). -/
  routes : ∀ r ∈ s.tc.records, r.route ≠ none ↔ r.state = .routed ∨ r.state = .due ∨ r.state = .fired
  /-- A carry reason stands on CARRIED records, which are alone (R26, R39). -/
  carries : ∀ r ∈ s.tc.records, (r.carry ≠ none ↔ r.state = .carried) ∧ (r.state = .carried → r.cluster = none)
  /-- A member points at a live leader in its own state, with its outlet and fire point (R35). -/
  members : ∀ r ∈ s.tc.records, ∀ t, r.cluster = some (.member t) → ∃ l ∈ s.tc.records, l.tag = t ∧ (∃ n, l.cluster = some (.leader n)) ∧ l.state = r.state
    ∧ l.route.map (fun x => (x.outlet, x.firePoint)) = r.route.map (fun x => (x.outlet, x.firePoint))
  /-- A leader holds the number of its cluster's members, 2 to 8 (R35, R42). -/
  leaders : ∀ r ∈ s.tc.records, ∀ n, r.cluster = some (.leader n) → n = (s.membersOf r.tag).length ∧ 2 ≤ n ∧ n ≤ 8
  /-- The committed units of an outlet are those of the routes there (R26). -/
  committed : ∀ o : OutletNo, (s.outlet o).committed = s.unitsAt o (fun _ => true)
  /-- The FIRED records at an outlet are its stroke set, with their units (R38, R126). -/
  fired : ∀ o : OutletNo, match (s.outlet o).strokeSet with
    | none => ∀ r ∈ s.tc.records, ¬r.isAt .fired o
    | some set => set.members.Nodup ∧ (∀ t, t ∈ set.members ↔ ∃ r ∈ s.tc.records, r.tag = t ∧ r.isAt .fired o)
        ∧ set.units = s.unitsAt o (fun r => r.state == .fired)
  /-- The DUE records at an outlet are one cluster, whose deadline request waits there with their units (R29, R118). -/
  due : ∀ o : OutletNo, match (s.outlet o).request with
    | some (.deadline ms _ units) => ms.Nodup ∧ (∀ t, t ∈ ms ↔ ∃ r ∈ s.tc.records, r.tag = t ∧ r.isAt .due o)
        ∧ units = s.unitsAt o (fun r => r.state == .due)
        ∧ ∀ r ∈ s.tc.records, ∀ q ∈ s.tc.records, r.isAt .due o → q.isAt .due o → r.leaderTag = q.leaderTag
    | _ => ∀ r ∈ s.tc.records, ¬r.isAt .due o

/-- The belt-order list, from the oldest: no stamp lies further behind the high-water mark than an older one (R31). -/
abbrev State.orderLaw (s : State) : Prop := s.tc.records.Pairwise (fun a b => ahead s.bpu.hwm b.stamp ≤ ahead s.bpu.hwm a.stamp)

/-- A response of the port placed for a request (R176, R178): the rest of the part as `s` has it. -/
def State.answered (s : State) (c : Instr) (r : Response) : State :=
  { s with sp := { requestBuffer := (portFrame c).take 19, response := some r, ready := true, resetHold := s.sp.resetHold, miso := [] } }

/-! ### Terms of the statements -/

/-- The forward column of the quadrature table (spec/01, Quadrature decoding). -/
def forwardRows : List (Bool × Bool × Bool × Bool) :=
  [(false, false, true, false), (true, false, true, true), (true, true, false, true), (false, true, false, false)]

/-- The reverse column of the quadrature table (spec/01, Quadrature decoding). -/
def reverseRows : List (Bool × Bool × Bool × Bool) :=
  [(false, false, false, true), (true, false, false, false), (true, true, true, false), (false, true, true, true)]

/-- No fire request waits at any outlet, so a grant decision grants nothing (R122). -/
abbrev State.quiet (s : State) : Prop := ∀ o : OutletNo, (s.outlet o).request = none

/-- No live record is ROUTED or DUE at an outlet. -/
abbrev State.noneWaiting (s : State) (o : OutletNo) : Prop := ∀ r ∈ s.tc.records, r.waitsAt o = false

/-- The live records of a key. -/
def State.keyCount (s : State) (k : KeyNo) : Nat := s.tc.records.countP (fun r => r.key == k)

/-- The live records of a slot. -/
def State.slotCount (s : State) (i : Slot) : Nat := s.tc.records.countP (fun r => r.slot == i)

/-- The value of one outlet replaced and the rest of the part kept. -/
def State.withOutlet (s : State) (o : OutletNo) (x : Outlet) : State := { s with outlets := s.outlets.set o.val x }

/-- The attention sources of a mask raised (R200). -/
def State.withLatches (s : State) (m : BitVec 8) : State := { s with tau := { s.tau with latches := s.tau.latches ||| m } }

/-- What work on records and outlets never touches, whatever it routes, carries, retires, grants or cancels: the parameters, the time base, the
belt, the lamp cycle, the port, the pins, the queue, the plan and its status once recorded, the link but for L, and of every outlet its fields,
enable, rack key, chute, line filters and recovery. -/
structure KeptByWork (new old : State) : Prop where
  params : new.params = old.params
  time : new.time = old.time
  oc : new.oc = old.oc
  sp : new.sp = old.sp
  freeNext : new.freeNext = old.freeNext
  pending : new.pending = old.pending
  banks : new.rd.bank0 = old.rd.bank0 ∧ new.rd.bank1 = old.rd.bank1 ∧ new.rd.active = old.rd.active ∧ new.rd.planValid = old.rd.planValid
  planStatus : old.rd.planStatus.isSome → new.rd.planStatus = old.rd.planStatus
  ilc : new.ilc = { old.ilc with l := new.ilc.l }
  outlets : ∀ o : OutletNo, (new.outlet o).fields = (old.outlet o).fields ∧ (new.outlet o).enabled = (old.outlet o).enabled
    ∧ (new.outlet o).rackKey = (old.outlet o).rackKey ∧ (new.outlet o).blocked = (old.outlet o).blocked
    ∧ (new.outlet o).rackFilter = (old.outlet o).rackFilter ∧ (new.outlet o).eyeFilter = (old.outlet o).eyeFilter
    ∧ (new.outlet o).buttonFilter = (old.outlet o).buttonFilter ∧ (new.outlet o).homeFilter = (old.outlet o).homeFilter
    ∧ (new.outlet o).blockTimer = (old.outlet o).blockTimer ∧ (new.outlet o).clearTimer = (old.outlet o).clearTimer
    ∧ (new.outlet o).recoverTimer = (old.outlet o).recoverTimer

/-! ### Grant decisions -/

/-- A request can be granted: it waits, its paddle is IDLE and no stroke set is held (R120). -/
abbrev State.canGrant (s : State) (o : OutletNo) : Prop :=
  (s.outlet o).request ≠ none ∧ (s.outlet o).paddle = .idle ∧ (s.outlet o).strokeSet = none

/-- A tie of two requests: the lower arbitration level, then the lower outlet number (R123). -/
abbrev State.tieBreak (s : State) (a b : OutletNo) : Prop :=
  (s.outlet a).fields.level < (s.outlet b).fields.level ∨ (s.outlet a).fields.level = (s.outlet b).fields.level ∧ a < b

/-- The request at `a` is granted before the one at `b` (R123): deadline requests by slack, then the tie; a test stroke after every deadline
request, and test strokes by the tie. -/
def State.goesBefore (s : State) (a b : OutletNo) : Prop :=
  match (s.outlet a).request, (s.outlet b).request with
  | some (.deadline _ la _), some (.deadline _ lb _) =>
    ahead la s.bpu.position < ahead lb s.bpu.position ∨ ahead la s.bpu.position = ahead lb s.bpu.position ∧ s.tieBreak a b
  | some (.deadline ..), some .test => True
  | some .test, some .test => s.tieBreak a b
  | _, _ => False

/-- The records of a deadline request; none for a test stroke. -/
def Outlet.requestMembers (x : Outlet) : List Tag :=
  match x.request with
  | some (.deadline members _ _) => members
  | _ => []

/-- An outlet whose waiting request has been granted (R113, R126). -/
def Outlet.granted (x : Outlet) : Outlet :=
  match x.request with
  | none => x
  | some .test => { x with paddle := .stroke, strokeTimer := 0, strokeFigure := x.fields.strokeTime, request := none }
  | some (.deadline members _ units) =>
    { x with
      paddle := .stroke
      strokeTimer := 0
      strokeFigure := x.fields.strokeTime
      request := none
      strokeSet := some { members := members, units := units }
      confirmTimer := 0
      windowFigure := x.fields.confirmWindow
      latest := if ∃ l, x.latest = some l ∧ l.owner ∈ members then none else x.latest }

/-- A grant decision that grants the requests of the outlets `g` (R122, R123, R126): each could be granted, each goes before every one that is left, grants stay
within the air budget, and they stop only at a full budget or with no request left to grant. Each granted outlet strokes, its deadline request's records
are FIRED and its strokes tally rises; nothing else changes. -/
structure GrantDecision (new old : State) (g : List OutletNo) : Prop where
  nodup : g.Nodup
  able : ∀ o ∈ g, old.canGrant o
  order : ∀ a ∈ g, ∀ b, b ∉ g → old.canGrant b → old.goesBefore a b
  budget : g = [] ∨ old.aa.slotsInUse + g.length ≤ old.params.airBudget
  stop : old.params.airBudget ≤ old.aa.slotsInUse + g.length ∨ ∀ o, old.canGrant o → o ∈ g
  outlets : ∀ o, new.outlet o = if o ∈ g then (old.outlet o).granted else old.outlet o
  records : new.tc.records = old.tc.records.map (fun r =>
    if ∃ o ∈ g, r.tag ∈ (old.outlet o).requestMembers then { r with state := .fired, waypoint := none } else r)
  strokes : ∀ o, vget new.tau.outlets o =
    if o ∈ g ∧ (old.outlet o).request ≠ some .test then
      { vget old.tau.outlets o with strokes := min 16777215 ((vget old.tau.outlets o).strokes + 1) }
    else vget old.tau.outlets o
  rest : new = { old with
    tc := { old.tc with records := new.tc.records }
    outlets := new.outlets
    tau := { old.tau with outlets := new.tau.outlets }
    aa := { slotsInUse := old.aa.slotsInUse + g.length } }

/-! ### Retirement -/

/-- The live records of these tags that have a key. -/
def State.keyCountIn (s : State) (ts : List Tag) (k : KeyNo) : Nat := s.tc.records.countP (fun r => ts.contains r.tag && r.key == k)

/-- The live records of these tags that stand in a slot. -/
def State.slotCountIn (s : State) (ts : List Tag) (i : Slot) : Nat := s.tc.records.countP (fun r => ts.contains r.tag && r.slot == i)

/-- Whole clusters of live records: the tags are distinct, each names a live record, and a live record's leader is among them exactly when the
record is. -/
abbrev State.wholeClusters (s : State) (ts : List Tag) : Prop :=
  ts.Nodup ∧ (∀ t ∈ ts, ∃ r ∈ s.tc.records, r.tag = t) ∧ ∀ r ∈ s.tc.records, r.leaderTag ∈ ts ↔ r.tag ∈ ts

/-- The table with these records taken out (R23, R40): their slots are FREE with the generation advanced, and the other records stand; in DRAINING an
emptied table brings STANDBY and L becomes E (R166). -/
structure TakenOut (new old : State) (ts : List Tag) : Prop where
  records : new.tc.records = old.tc.records.filter (fun r => !ts.contains r.tag)
  gens : ∀ i : Slot, vget new.tc.gens i = vget old.tc.gens i + BitVec.ofNat 4 (old.slotCountIn ts i)
  service : new.service = if old.service = .draining ∧ new.tc.records = [] ∧ ts ≠ [] then .standby else old.service
  ilc : new.ilc = if old.service = .draining ∧ new.tc.records = [] ∧ ts ≠ [] then { old.ilc with l := old.ilc.e } else old.ilc

/-- The tags of those records whose end points lie at or behind the position (R41). -/
def State.endedOf (s : State) (rs : List Record) : List Tag := (rs.filter (fun q => atOrBeyond s.bpu.position (s.endPoint q))).map Record.tag

/-- `t` is `s` with the CARRIED records of these tags retired END in the same event (R41, R196). -/
def State.endsAtOnce (s : State) (ts : List Tag) (t : State) : Prop :=
  TakenOut t s ts
    ∧ (∀ k, vget t.tau.keys k = { vget s.tau.keys k with ended := min 16777215 ((vget s.tau.keys k).ended + s.keyCountIn ts k) })
    ∧ t = { s with tc := t.tc, service := t.service, ilc := t.ilc, tau := { s.tau with keys := t.tau.keys } }

/-- A member of a cluster that another has left (R42), with its leader now `lead` and `n` members: the leader holds the count, or is alone, and the decision
point of a PENDING cluster; every other member points at it. -/
def State.relinked (s : State) (lead : Tag) (n : Nat) (q : Record) : Record :=
  if q.tag = lead then { q with
    cluster := if n = 1 then none else some (.leader n)
    waypoint := if q.state = .pending then some (plus q.stamp s.params.q) else q.waypoint }
  else { q with cluster := some (.member lead) }

/-! ### Racks and reservations -/

/-- The rack that has left an outlet counted as exchanged under its key when fill is above 0, and fill 0 (R94, steps 4 and 5). -/
def State.rackGone (s : State) (o : OutletNo) (key : Option KeyNo) : State :=
  { s.withOutlet o { s.outlet o with fill := 0 } with
    tau := if (s.outlet o).fill = 0 then s.tau else { s.tau with
      keys := match key with
        | some k => s.tau.keys.set k.val { vget s.tau.keys k with racks := min 16777215 ((vget s.tau.keys k).racks + 1) }
        | none => s.tau.keys
      outlets := s.tau.outlets.set o.val { vget s.tau.outlets o with racks := min 16777215 ((vget s.tau.outlets o).racks + 1) } } }

/-- The rack state after a press and whether RACK is raised, by the row of the present rack state (R96). -/
def Outlet.pressed (x : Outlet) : RackState × Bool :=
  match x.rack with
  | .opened => if 0 < x.committed then (.closing, false) else (.swapReady, true)
  | .full => (.swapReady, true)
  | other => (other, false)

/-- An outlet with units taken from committed; a CLOSING rack left with none is SWAP_READY (R98). -/
def Outlet.less (x : Outlet) (units : Nat) : Outlet :=
  { x with committed := x.committed - units, rack := if x.rack = .closing ∧ x.committed ≤ units then .swapReady else x.rack }

/-- The RACK latch when units taken from committed leave a CLOSING rack with none (R98). -/
def Outlet.emptiedBy (x : Outlet) (units : Nat) : BitVec 8 := if x.rack = .closing ∧ x.committed ≤ units then 0x01 else 0

/-! ### A forward tick and a lone record that it reaches -/

/-- The levels `a` and `b` are a legal step forward from the accepted ones (R3). -/
def State.forwardStep (s : State) (a b : Bool) : Prop :=
  ∃ a₀ b₀, s.bpu.encA.accepted = some a₀ ∧ s.bpu.encB.accepted = some b₀
    ∧ (a₀, b₀, a, b) ∈ (if s.params.encInvert then reverseRows else forwardRows)

/-- The state with the belt moved on by one forward tick (R5, R7, R8, R12). -/
def State.moved (s : State) (a b : Bool) : State :=
  let p := s.bpu.position + 1
  let h := if (p - s.bpu.hwm).toNat < 8388608 then p else s.bpu.hwm
  { s with
    pins := { s.pins with encA := a, encB := b }
    bpu := { s.bpu with
      encA := { s.bpu.encA with accepted := some a, count := 0 }
      encB := { s.bpu.encB with accepted := some b, count := 0 }
      position := p
      hwm := h
      reverseExcess := decide (s.params.reverseAllow < (h - p).toNat)
      windowCount := s.bpu.windowCount + 1 } }

/-- A legal forward step that does not raise TRACK LOSS (R8). -/
def State.plainTick (s : State) (a b : Bool) : Prop :=
  s.forwardStep a b ∧ (s.bpu.reverseExcess = true ∨ (s.moved a b).bpu.reverseExcess = false)

/-- A lone live record is the only one whose waypoint is `p`. -/
def State.loneAt (s : State) (r : Record) (p : Pos) : Prop :=
  r ∈ s.tc.records ∧ r.cluster = none ∧ r.waypoint = some p
    ∧ ∀ q ∈ s.tc.records, q.tag ≠ r.tag → q.waypoint ≠ some p ∧ q.leaderTag ≠ r.tag

/-- One record of the table replaced. -/
def State.withRecord (s : State) (t : Tag) (r : Record) : State :=
  { s with tc := { s.tc with records := s.tc.records.map (fun q => if q.tag = t then r else q) } }

/-- One outlet tally of an outlet replaced. -/
def State.withOutletTally (s : State) (o : OutletNo) (x : OutletTally) : State :=
  { s with tau := { s.tau with outlets := s.tau.outlets.set o.val x } }

/-- A record riding to the belt end (R39). -/
def State.ride (s : State) (why : CarryReason) (r : Record) : Record :=
  { r with state := .carried, carry := some why, route := none, cluster := none, waypoint := some (s.endPoint r) }

/-! ### Walks of a whole cluster -/

/-- The records of a list replaced in the table, each by its own update. -/
def State.withEach (s : State) (ms : List Record) (f : Record → Record) : State :=
  { s with tc := { s.tc with records := s.tc.records.map (fun q => if q.tag ∈ ms.map Record.tag then f q else q) } }

/-- A walk that goes on at an entry of the active bank (R64, R65), for the cluster `ms` led from stamp `s0`: `n` entries have been examined, `jumped` says that
the last of them was a JUMP, and `last` is the last refusal so far. The last two arguments are the end of the walk and its last refusal. -/
inductive RouteWalk (s : State) (s0 : Pos) (ms : List Record) :
    Nat → RouteIx → Bool → Option RefusalReason → WalkEnd → Option RefusalReason → Prop where
  /-- A seventeenth entry is not examined. -/
  | limit {i jumped last} : RouteWalk s s0 ms 16 i jumped last (.planCheck .walkLimit i) last
  | chainEnd {n i jumped last} : n < 16 → vget s.rd.activeBank.routes i = .stop → RouteWalk s s0 ms n i jumped last .chainEnd last
  | accepts {n i jumped last o chain f} : n < 16 → vget s.rd.activeBank.routes i = .outlet o chain → s.accept o s0 ms = .ok f →
      RouteWalk s s0 ms n i jumped last (.accepted o i f) last
  | refuses {n i jumped last o why} : n < 16 → vget s.rd.activeBank.routes i = .outlet o false → s.accept o s0 ms = .error why →
      RouteWalk s s0 ms n i jumped last .chainEnd (some why)
  | pastEnd {n jumped last o why} : n < 16 → vget s.rd.activeBank.routes 255 = .outlet o true → s.accept o s0 ms = .error why →
      RouteWalk s s0 ms n 255 jumped last (.planCheck .pastEnd 255) (some why)
  | passesOn {n i jumped last o why result lastEnd} : n < 16 → i ≠ 255 → vget s.rd.activeBank.routes i = .outlet o true → s.accept o s0 ms = .error why →
      RouteWalk s s0 ms (n + 1) (i + 1) false (some why) result lastEnd → RouteWalk s s0 ms n i jumped last result lastEnd
  | doubleJump {n i last target chain} : n < 16 → vget s.rd.activeBank.routes i = .jump target chain →
      RouteWalk s s0 ms n i true last (.planCheck .doubleJump i) last
  | jumps {n i last target chain result lastEnd} : n < 16 → vget s.rd.activeBank.routes i = .jump target chain →
      RouteWalk s s0 ms (n + 1) target true last result lastEnd → RouteWalk s s0 ms n i false last result lastEnd

/-- The cluster `ms` led by `lead` after a walk with this end (R37, R39, R62, R66, R76): every member has the last refusal and, when `audit`, AUDIT; it is ROUTED with
its own class's weight at the outlet that accepts, where the weights are committed and the fire point is the latest; and else it is CARRIED. -/
def State.afterWalk (s : State) (ms : List Record) (lead : Record) (audit : Bool) (last : Option RefusalReason) (result : WalkEnd) : State :=
  let seen (q : Record) : Record := { q with flags := { q.flags with audit := q.flags.audit || audit }, lastRefusal := last }
  match result with
  | .accepted o i f =>
    (s.withEach ms (fun q => { seen q with
      state := .routed
      route := some { outlet := o, entry := i, firePoint := f, units := (s.classEntry q.cls).weight }
      waypoint := some f })).withOutlet o { s.outlet o with
        committed := (s.outlet o).committed + (ms.map (fun q => (s.classEntry q.cls).weight)).sum
        latest := some { point := f, owner := lead.tag } }
  | .chainEnd => s.withEach ms (fun q => s.ride .chainEnd (seen q))
  | .noChain => s.withEach ms (fun q => s.ride .noChain (seen q))
  | .planCheck kind i => { s.withEach ms (fun q => s.ride .planCheck (seen q)) with
      rd := { s.rd with planStatus := if s.rd.planStatus = none then some { cls := lead.cls, entry := i, kind := kind } else s.rd.planStatus }
      tau := { s.tau with
        latches := s.tau.latches ||| 0x40
        device := { s.tau.device with planChecks := min 16777215 (s.tau.device.planChecks + 1) } } }

/-- `t` is `s` with the cluster `ms` walked from a start index; from none no entry is examined (R62, R63). -/
def State.walksTo (s : State) (ms : List Record) (lead : Record) (audit : Bool) (start : Option RouteIx) (t : State) : Prop :=
  match start with
  | none => t = s.afterWalk ms lead audit none .noChain
  | some i => ∃ result last, RouteWalk s lead.stamp ms 0 i false none result last ∧ t = s.afterWalk ms lead audit last result

/-- `t` is `s` with the PENDING cluster `ms` decided (R63, R78, R79): the sampler advances when the leader's class has audit enable set, and a cluster that it
selects is walked from the audit head, unless that is NONE, and takes AUDIT. -/
def State.decidesTo (s : State) (ms : List Record) (lead : Record) (t : State) : Prop :=
  let e := s.classEntry lead.cls
  let v := if e.auditEnable = true then advanceSampler s.rd.sampler else s.rd.sampler
  let picked := decide (e.auditEnable = true ∧ v.toNat % 2 ^ s.params.auditRate = 0 ∧ e.auditHead ≠ none)
  ({ s with rd := { s.rd with sampler := v } } : State).walksTo ms lead picked (if picked then e.auditHead else e.head) t

/-- The units of a cluster's routes. -/
def routeUnits (ms : List Record) : Nat := (ms.map (fun q => (q.route.map (·.units)).getD 0)).sum

/-- An outlet record whose ROUTED or DUE cluster led by `leader` is taken off it: its units are given back, the latest fire point that it set is cleared and its
waiting request is cancelled (R39, R77, R81, R121). -/
def Outlet.without (x : Outlet) (leader : Tag) (units : Nat) : Outlet :=
  { x.less units with
    latest := if ∃ l, x.latest = some l ∧ l.owner = leader then none else x.latest
    request := if leader ∈ x.requestMembers then none else x.request }

/-- `t` is `s` with the ROUTED or DUE cluster led by `lead` re-routed from an outlet (R63, R81): its reservation is given back, every member takes REROUTED, and
it is walked from the audit head, when it has AUDIT and that is not NONE, or the head, without an advance of the sampler. -/
def State.reroutesTo (s : State) (o : OutletNo) (lead : Record) (t : State) : Prop :=
  let ms := s.membersOf lead.tag
  let e := s.classEntry lead.cls
  (((s.withEach ms (fun q => { q with
      state := .pending, route := none, waypoint := none, flags := { q.flags with rerouted := true } })).withOutlet o
    ((s.outlet o).without lead.tag (routeUnits ms))).withLatches ((s.outlet o).emptiedBy (routeUnits ms))).walksTo ms lead false
      (if lead.flags.audit = true ∧ e.auditHead ≠ none then e.auditHead else e.head) t

/-- The clusters of these leaders re-routed from an outlet one after another, each walk after the re-routes before it (R82). -/
inductive ReroutesEach (o : OutletNo) : State → List Tag → State → Prop where
  | none {s} : ReroutesEach o s [] s
  | next {s u t lead rest} : lead ∈ s.tc.records → s.reroutesTo o lead u → ReroutesEach o u rest t → ReroutesEach o s (lead.tag :: rest) t

/-- `t` is `s` with the ROUTED cluster of the record `r` at an outlet walked again because `r` has become `amended` (R45, R83): its reservation is given back, and it is
walked from the audit head, when it has AUDIT and that is not NONE, or the head of its leader's class as it now stands, without an advance of the
sampler and without REROUTED. -/
def State.amendsTo (s : State) (o : OutletNo) (r amended : Record) (t : State) : Prop :=
  ∃ lead ∈ s.tc.records, lead.tag = r.leaderTag ∧
    let now (q : Record) : Record := if q.tag = r.tag then amended else q
    let ms := s.membersOf lead.tag
    let e := s.classEntry (now lead).cls
    (((s.withEach ms (fun q => { now q with state := .pending, route := none, waypoint := none })).withOutlet o
      ((s.outlet o).without lead.tag (routeUnits ms))).withLatches ((s.outlet o).emptiedBy (routeUnits ms))).walksTo (ms.map now) (now lead) false
        (if lead.flags.audit = true ∧ e.auditHead ≠ none then e.auditHead else e.head) t

/-- The PENDING clusters of these leaders decided one after another, each walk after the decisions before it (R30). -/
inductive DecidesEach : State → List Record → State → Prop where
  | none {s} : DecidesEach s [] s
  | next {s u t lead rest} : s.decidesTo (s.membersOf lead.tag) lead u → DecidesEach u rest t → DecidesEach s (lead :: rest) t

/-- A record that leads its cluster, or is alone. -/
abbrev Record.leads (r : Record) : Prop := ∀ t, r.cluster ≠ some (.member t)

/-- The end points of these records lie ahead of the position, so that none of them ends as it is CARRIED (R39). -/
abbrev State.endsAhead (s : State) (p : Pos) (ms : List Record) : Prop := ∀ q ∈ ms, atOrBeyond p (s.endPoint q) = false

/-- A cluster is the only one with a waypoint at `p`. -/
abbrev State.reachesOnly (s : State) (p : Pos) (ms : List Record) : Prop :=
  (∃ q ∈ ms, q.waypoint = some p) ∧ ∀ q ∈ s.tc.records, q.waypoint = some p → q ∈ ms

/-! ### Events and line filters at a millisecond tick -/

/-- The command that takes an event which the last tick has brought about. -/
def State.commandOf (s : State) : Event → Instr
  | .windowExpiry => .speedWindowExpiry
  | .stall => .stall
  | .homeLevel o => .homeLevelAccepted o ((s.outlet o).homeFilter.accepted == some false)
  | .rackArrival o => .rackArrival o (vget s.pins.lines.keys o)
  | .rackRemoval o => .rackRemoval o
  | .swapPress o => .swapPress o
  | .passage o => .passage o
  | .strokeEnd o => .strokeEnd o
  | .recoveryEnd o => .recoveryEnd o
  | .homeTimeout o => .homeTimeout o
  | .confirmExpiry o => .confirmWindowExpiry o
  | .chuteBlocked o => .chuteBlocked o
  | .chuteClear o => .chuteClear o
  | .syncTimeout => .syncTimeout
  | .linkSilence => .linkSilenceTimeout
  | .beacon => .beacon

/-- One sample `x` of a line with filter length `n` takes the filter `f` to `g` (R92, R96, R101, R112): a level equal to the accepted one sets the count to 0, and one
that differs adds 1. A level for which `within` holds is accepted with the tick at which the count reaches the length; the acceptance of any other is an event
of its own. In acquisition the first `n` equal samples set the level. -/
def Sampled (within : Bool → Bool) (n : Nat) (x : Bool) (f g : Filter) : Prop :=
  (∀ l, f.accepted = some l → x = l → g = { f with count := 0 })
    ∧ (∀ l, f.accepted = some l → x ≠ l →
      g = if within x = true ∧ n ≤ f.count + 1 then { f with accepted := some x, count := 0 } else { f with count := f.count + 1 })
    ∧ (f.accepted = none → ∀ c, c = (if f.run = x ∧ 0 < f.count then f.count + 1 else 1) →
      g = if n ≤ c then { accepted := some x, run := x, count := 0 } else { f with run := x, count := c })

/-! ### Notices and frames -/

/-- The state in which a valid notice of number `n` has passed checks 1 and 2: the two counts of R139 are 0, E is n + 1, and a gap is counted and raises INTAKE
(R153). -/
def State.numbered (s : State) (n : Byte) : State :=
  let gap := (n - s.ilc.e).toNat
  { s with
    ilc := { s.ilc with rx := .idle, assembler := .hunt, silence := 0, badRun := 0, e := n + 1 }
    tau := if gap = 0 then s.tau
      else { s.tau with
        latches := s.tau.latches ||| 0x10
        device := { s.tau.device with gapTotal := min 16777215 (s.tau.device.gapTotal + gap) } } }

/-- A notice that passes the six checks with its stamp as clamped (R150 to R156), its record's length as kept (R32), and `slot` the lowest FREE slot (R25). -/
structure State.PassesChecks (s : State) (n : Byte) (stamp : Pos) (len : BitVec 16) (clamped : Bool) (st : Pos) (ln : Nat) (slot : Slot) : Prop where
  active : s.ilc.link = .active
  serving : s.service = .serving
  inOrder : (n - s.ilc.e).toNat < 128
  credit : 1 ≤ (s.ilc.l - n).toNat ∧ (s.ilc.l - n).toNat ≤ 128
  clampedIff : clamped = decide ((stamp - s.bpu.position).toNat < 8388608 ∧ stamp ≠ s.bpu.position)
  stampIs : st = if clamped then s.bpu.position else stamp
  fresh : (s.bpu.position - st).toNat ≤ s.params.noticeAge
  lengthIs : ln = if len.toNat = 0 then 1 else min 4095 len.toNat
  free : ∀ q ∈ s.tc.records, q.slot ≠ slot
  lowest : ∀ i : Slot, i < slot → ∃ q ∈ s.tc.records, q.slot = i

/-- The place of a stamp in the belt-order list (R31): after every record whose stamp is at or before it. -/
def placedAt (st : Pos) (before after : List Record) : Prop :=
  (∀ q ∈ before, atOrBeyond st q.stamp = true) ∧ ∀ q ∈ after.head?, atOrBeyond st q.stamp = false

/-- A live record apart from an item at `st` of length `ln` by the overlap test (R33). -/
def Record.apartFrom (q : Record) (clearance : Nat) (st : Pos) (ln : Nat) : Prop :=
  (atOrBeyond st q.stamp = true → q.length + clearance ≤ ahead st q.stamp) ∧ (atOrBeyond st q.stamp = false → ln + clearance ≤ ahead q.stamp st)

/-- The record that a notice creates, before its cluster and waypoint (R27, R32). -/
def freshRecord (slot : Slot) (gen : BitVec 4) (n : Byte) (st : Pos) (ln : Nat) (c : ClassNo) (k : KeyNo) (clamped : Bool) : Record :=
  { slot := slot, gen := gen, number := n, stamp := st, length := ln, cls := c, key := k, state := .pending
    flags := { audit := false, amended := false, stampClamped := clamped, rerouted := false }
    cluster := none, route := none, lastRefusal := none, carry := none, waypoint := none }

/-- A record of a merged set that an overlap carries off an outlet (R36). -/
abbrev Record.leavesAt (q : Record) (o : OutletNo) : Prop := q.isAt .routed o ∨ q.isAt .due o

/-- An outlet as a merged set leaves it whose decided clusters are all CARRIED (R36, R39, R77, R98, R121): the units of its ROUTED and DUE members are given back, a latest fire
point that one of their clusters set is cleared, and their waiting request is cancelled. -/
def Outlet.afterOverlap (x : Outlet) (o : OutletNo) (m : List Record) : Outlet :=
  if ∃ q ∈ m, q.leavesAt o then
    { x.less ((m.filter (fun q => decide (q.leavesAt o))).map (fun q => q.unitsAt o)).sum with
      latest := if ∃ l, x.latest = some l ∧ ∃ q ∈ m, q.leavesAt o ∧ q.leaderTag = l.owner then none else x.latest
      request := if ∃ q ∈ m, q.tag ∈ x.requestMembers then none else x.request }
  else x

/-- Bytes received one after another. -/
def receiveAll : List Byte → State → Outcome
  | [], s => .next s
  | b :: rest, s =>
    match exec (.receivedByte (byteLevels b)) s with
    | .next t => receiveAll rest t
    | stop => stop

/-- One bit brought into the CRC register, in the bit-serial form of R136. -/
def crcBit (r : Byte) (bit : Bool) : Byte := if r.msb ≠ bit then (r <<< 1) ^^^ 0x07 else r <<< 1

/-- The bits of a byte, the most significant first. -/
def bitsOf (b : Byte) : List Bool := [7, 6, 5, 4, 3, 2, 1, 0].map b.getLsbD

end Sys2Proof.Machine
end

