-- ==== Sys2Proof/Certificates/Slice0/Obligations.lean ====
section
/-! DEFINITION. The statements about the ZB860, in the order of the spec's chapters: the queue and the resets, the belt, the outlets and paddles,
the intake link, the supervisor port, and the laws that every command keeps. -/

open Sys2Proof Sys2Proof.Machine

/-! ### The queue and the power-on reset -/

/-- A step takes the command at the front of the queue and is `exec` of it on the state with the queue's rest; on an empty queue the block idles
(the model's choice, log 1). -/
def Obligations.StepTakesTheFrontCommand : Prop :=
  (∀ (c : Instr) (rest : List Instr) (s : State), step { s with pending := c :: rest } = exec c { s with pending := rest })
    ∧ ∀ s : State, s.pending = [] → step s = .next s

/-- R53: after POWER_ON_RESET every slot is FREE with generation 0, the lists are empty, 256 records are free, CLEARANCE, Q and D_END have their
reset values, and the first record takes slot 0 with tag 0. -/
def Obligations.PowerOnEmptiesTheTrackTable : Prop :=
  ∀ (csLow : Bool) (s : State), ∃ t, exec (.powerOnReset csLow) s = .next t
    ∧ (∀ i : Slot, t.slotRecord i = none ∧ vget t.tc.gens i = 0) ∧ t.tc.records = [] ∧ t.waypointOrder = [] ∧ t.freeCount = 256
    ∧ t.params.clearance = 20 ∧ t.params.q = 4000 ∧ t.params.dEnd = 40000
    ∧ t.freeSlot = some 0 ∧ Tag.toNat { slot := 0, gen := vget t.tc.gens 0 } = 0

/-- R21, R84, R111, R131, R160, R162, R180, R199, R204: the values of every other piece of state after POWER_ON_RESET. What the spec gives no reset value for
(the pins, the paddle figures) is not stated. The waiting commands are kept (log 22). -/
def Obligations.PowerOnResetValues : Prop :=
  ∀ (csLow : Bool) (s : State), ∃ t, exec (.powerOnReset csLow) s = .next t
    ∧ t.bpu.encA.accepted = none ∧ t.bpu.encA.count = 0 ∧ t.bpu.encB.accepted = none ∧ t.bpu.encB.count = 0
    ∧ t.bpu.position = 0 ∧ t.bpu.hwm = 0 ∧ t.bpu.reverseExcess = false ∧ t.bpu.errorLevel = 0 ∧ t.bpu.windowTimer = 0 ∧ t.bpu.windowCount = 0
    ∧ t.bpu.windowIllegal = false ∧ t.bpu.v = 0 ∧ t.beltRunning = false ∧ t.bpu.stallTimer = 0 ∧ t.bpu.stallRaised = false
    ∧ t.time.divider = 0 ∧ t.oc.lampCycle = 0 ∧ t.aa.slotsInUse = 0
    ∧ (t.params.msDiv = 25000 ∧ t.params.encFilter = 3 ∧ t.params.encInvert = false ∧ t.params.window = 50 ∧ t.params.reverseAllow = 400
      ∧ t.params.stallTime = 2000 ∧ t.params.armMargin = 64 ∧ t.params.auditRate = 6 ∧ t.params.rackDebounce = 200 ∧ t.params.eyeFilter = 3
      ∧ t.params.chuteBlockTime = 1500 ∧ t.params.chuteClearTime = 1000 ∧ t.params.airBudget = 4 ∧ t.params.missLimit = 3
      ∧ t.params.syncTimeout = 200 ∧ t.params.linkSilence = 40 ∧ t.params.beaconPeriod = 5 ∧ t.params.creditMargin = 4
      ∧ t.params.noticeAge = 6000)
    ∧ (∀ b ∈ [t.rd.bank0, t.rd.bank1],
        (∀ c : ClassNo, vget b.classes c = { weight := 1, head := none, auditEnable := false, auditHead := none })
          ∧ ∀ i : RouteIx, vget b.routes i = .stop)
    ∧ t.rd.active = false ∧ t.rd.planValid = false ∧ t.rd.planStatus = none ∧ t.rd.sampler = 0x9C5
    ∧ (∀ o : OutletNo, (t.outlet o).fields =
          { position := 0, latency := 40, trim := 0, strokeTime := 80, recoverTime := 60, homeTimeout := 250, confirmWindow := 400, maxSpan := 1600,
            lateTolerance := 24, capacity := 60, warnLevel := 0, acceptMask := 0, level := 8, holdOnBlock := false }
        ∧ (t.outlet o).enabled = false ∧ (t.outlet o).rack = .absent ∧ (t.outlet o).rackKey = none ∧ (t.outlet o).fill = 0
        ∧ (t.outlet o).committed = 0 ∧ (t.outlet o).latest = none ∧ (t.outlet o).blocked = false ∧ (t.outlet o).blockTimer = 0
        ∧ (t.outlet o).clearTimer = 0 ∧ (t.outlet o).missRun = 0 ∧ (t.outlet o).rackFilter.accepted = some false
        ∧ (t.outlet o).rackFilter.count = 0 ∧ (t.outlet o).eyeFilter.accepted = none ∧ (t.outlet o).buttonFilter.accepted = none
        ∧ (t.outlet o).homeFilter.accepted = none ∧ (t.outlet o).lamp = .off ∧ t.lampLit o = false ∧ (t.outlet o).paddle = .idle
        ∧ t.fire o = false ∧ (t.outlet o).strokeTimer = 0 ∧ (t.outlet o).recoverTimer = 0 ∧ (t.outlet o).request = none
        ∧ (t.outlet o).strokeSet = none ∧ (t.outlet o).confirmTimer = 0)
    ∧ t.ilc = { link := .offline, rx := .idle, assembler := .hunt, badRun := 0, silence := 0, syncTimer := 0, syncFrames := 0, beaconTimer := 0, tx := .idle,
                e := 0, l := 0 }
    ∧ t.sp.requestBuffer = [] ∧ t.sp.response = none ∧ t.sp.ready = false ∧ (∀ i, t.misoByte i = 0xFF) ∧ t.sp.resetHold = csLow
    ∧ t.service = .standby ∧ t.hold = false
    ∧ (∀ k : KeyNo, vget t.tau.keys k = { delivered := 0, ended := 0, withdrawn := 0, lost := 0, racks := 0 })
    ∧ (∀ o : OutletNo, vget t.tau.outlets o = { items := 0, units := 0, strokes := 0, misses := 0, abandoned := 0, strays := 0, racks := 0 })
    ∧ t.tau.device = { badFrames := 0, outOfOrder := 0, overruns := 0, refused := 0, stale := 0, gapTotal := 0, unmatched := 0, planChecks := 0,
                       trackLosses := 0, encoderFaults := 0 }
    ∧ (∀ i, t.linkTx i = true) ∧ t.tau.latches = 0 ∧ t.tau.enables = 0 ∧ t.tau.lineMap = 0 ∧ t.attnA = false ∧ t.attnB = false
    ∧ t.pending = s.pending

/-! ### The belt -/

/-- R1, R2, R3 (ENCODER_SAMPLE, ENCODER_STEP): what one sample does to each line's accepted level and filter count, in acquisition and after it; where no accepted
level changes, nothing else of the part changes but the pins and the divider; and where one changes with both lines out of acquisition, the sample does in the same event (the model's choice, log 5) what ENCODER_STEP of
the levels then accepted does. An ENCODER_STEP in acquisition sets the first accepted levels, and one of the levels already accepted is no step: neither changes anything else (the model's choice, log 4). -/
def Obligations.EncoderSampleFiltersEachLine : Prop :=
  (∀ (a b : Bool) (s : State), ∃ t, exec (.encoderSample a b) s = .next t
    ∧ (∀ line ∈ [(a, s.bpu.encA, t.bpu.encA), (b, s.bpu.encB, t.bpu.encB)],
        match line with
        | (x, f, g) =>
          (∀ l, f.accepted = some l → x = l → g.accepted = some l ∧ g.count = 0)
            ∧ (∀ l, f.accepted = some l → x ≠ l → f.count + 1 < s.params.encFilter → g.accepted = some l ∧ g.count = f.count + 1)
            ∧ (∀ l, f.accepted = some l → x ≠ l → s.params.encFilter ≤ f.count + 1 → g.accepted = some x ∧ g.count = 0)
            ∧ (∀ c, f.accepted = none → c = (if f.run = x ∧ 0 < f.count then f.count + 1 else 1) →
                (c < s.params.encFilter → g.accepted = none ∧ g.run = x ∧ g.count = c)
                  ∧ (s.params.encFilter ≤ c → g.accepted = some x ∧ g.count = 0)))
    ∧ ((s.bpu.encA.accepted = none ∨ s.bpu.encB.accepted = none
          ∨ t.bpu.encA.accepted = s.bpu.encA.accepted ∧ t.bpu.encB.accepted = s.bpu.encB.accepted) →
        t = { s with
          time := t.time
          pins := { s.pins with encA := a, encB := b }
          bpu := { s.bpu with encA := t.bpu.encA, encB := t.bpu.encB } })
    ∧ ∀ a₀ b₀ a₁ b₁, s.bpu.encA.accepted = some a₀ → s.bpu.encB.accepted = some b₀ → t.bpu.encA.accepted = some a₁ → t.bpu.encB.accepted = some b₁ →
        a₁ ≠ a₀ ∨ b₁ ≠ b₀ →
        ∃ u, exec (.encoderStep a₁ b₁) s = .next u
          ∧ t = { u with
              time := t.time
              pins := { u.pins with encA := a, encB := b }
              bpu := { u.bpu with encA := t.bpu.encA, encB := t.bpu.encB } })
  ∧ ∀ (a b : Bool) (s : State),
    s.bpu.encA.accepted = none ∨ s.bpu.encB.accepted = none ∨ s.bpu.encA.accepted = some a ∧ s.bpu.encB.accepted = some b →
    exec (.encoderStep a b) s = .next { s with
      pins := { s.pins with encA := a, encB := b }
      bpu := { s.bpu with
        encA := { s.bpu.encA with accepted := some a, count := 0 }
        encB := { s.bpu.encB with accepted := some b, count := 0 } } }

/-- R3, R5, R7, R8, R12 (ENCODER_STEP): a legal step forward adds 1 to the position modulo 2^24 and to the window count, moves the HWM when the new position
is beyond it, and evaluates the reverse excess; the step's waypoints touch nothing that work on records does not. Where no live record's waypoint is
the new position and TRACK LOSS is not raised, nothing else changes. -/
def Obligations.ForwardTickMovesThePosition : Prop :=
  ∀ (s : State) (a₀ b₀ a b : Bool), s.bpu.encA.accepted = some a₀ → s.bpu.encB.accepted = some b₀ →
    (a₀, b₀, a, b) ∈ (if s.params.encInvert then reverseRows else forwardRows) →
    ∀ (p : Pos) (h : Pos), p = s.bpu.position + 1 → h = (if (p - s.bpu.hwm).toNat < 8388608 ∧ p ≠ s.bpu.hwm then p else s.bpu.hwm) →
    ∃ t, exec (.encoderStep a b) s = .next t
      ∧ t.bpu = { s.bpu with
          encA := { s.bpu.encA with accepted := some a, count := 0 }
          encB := { s.bpu.encB with accepted := some b, count := 0 }
          position := p
          hwm := h
          reverseExcess := decide (s.params.reverseAllow < (h - p).toNat)
          windowCount := s.bpu.windowCount + 1 }
      ∧ (s.bpu.reverseExcess = true ∨ (h - p).toNat ≤ s.params.reverseAllow → KeptByWork t s ∧ t.due = s.due)
      ∧ ((∀ r ∈ s.tc.records, r.waypoint ≠ some p) → s.bpu.reverseExcess = true ∨ (h - p).toNat ≤ s.params.reverseAllow →
          t = { s with bpu := t.bpu, pins := { s.pins with encA := a, encB := b } })

/-- R3, R4, R5, R7, R8, R12, R18 (ENCODER_STEP): a legal step in reverse subtracts 1 from the position modulo 2^24 and from the window count, leaves the HWM and evaluates the
reverse excess; when that does not become true it reaches no waypoint and changes nothing else. When both lines change at one sample the position, the HWM and the window count
stay, the error level rises by 1 up to 31, and the window's illegal indication is set; where the level does not go from 15 to 16 nothing else changes. -/
def Obligations.ReverseTicksAndIllegalSteps : Prop :=
  (∀ (s : State) (a₀ b₀ a b : Bool), s.bpu.encA.accepted = some a₀ → s.bpu.encB.accepted = some b₀ →
    (a₀, b₀, a, b) ∈ (if s.params.encInvert then forwardRows else reverseRows) →
    ∀ p : Pos, p = s.bpu.position - 1 →
    ∃ t, exec (.encoderStep a b) s = .next t
      ∧ t.bpu = { s.bpu with
          encA := { s.bpu.encA with accepted := some a, count := 0 }
          encB := { s.bpu.encB with accepted := some b, count := 0 }
          position := p
          reverseExcess := decide (s.params.reverseAllow < (s.bpu.hwm - p).toNat)
          windowCount := s.bpu.windowCount - 1 }
      ∧ (s.bpu.reverseExcess = true ∨ (s.bpu.hwm - p).toNat ≤ s.params.reverseAllow →
          t = { s with bpu := t.bpu, pins := { s.pins with encA := a, encB := b } }))
  ∧ ∀ (s : State) (a b : Bool), s.bpu.encA.accepted = some (!a) → s.bpu.encB.accepted = some (!b) →
    ∃ t, exec (.encoderStep a b) s = .next t
      ∧ t.bpu = { s.bpu with
          encA := { s.bpu.encA with accepted := some a, count := 0 }
          encB := { s.bpu.encB with accepted := some b, count := 0 }
          errorLevel := min 31 (s.bpu.errorLevel + 1)
          windowIllegal := true }
      ∧ (s.bpu.errorLevel ≠ 15 → t = { s with bpu := t.bpu, pins := { s.pins with encA := a, encB := b } })

/-- R167, R168, R54, R110, R132, R149: a TRACK LOSS or ENCODER FAULT outside FAILSAFE (here by a reverse tick past the allowance, or an illegal step from error level
15) retires every live record LOST under its key with its slot's generation advanced, empties the outlets of their work, makes CLOSING racks SWAP_READY, sets L
to E, asserts HOLD and raises FAILSAFE; strokes, fill, line filters, the plan and the port stand. The tallies are taken within their bounds, an invariant of its
own. In FAILSAFE the same fault is counted and nothing else of the part changes but the belt's own state. -/
def Obligations.FailsafeEntryGivesUpEveryRecord : Prop :=
  (∀ (s : State) (a₀ b₀ a b : Bool), s.bpu.encA.accepted = some a₀ → s.bpu.encB.accepted = some b₀ → s.service ≠ .failsafe → s.tau.bounded →
    ((a₀, b₀, a, b) ∈ (if s.params.encInvert then forwardRows else reverseRows) ∧ s.bpu.reverseExcess = false
        ∧ s.params.reverseAllow < (s.bpu.hwm - (s.bpu.position - 1)).toNat
      ∨ a = !a₀ ∧ b = !b₀ ∧ s.bpu.errorLevel = 15) →
    ∃ t, exec (.encoderStep a b) s = .next t
      ∧ t.service = .failsafe ∧ t.tc.records = [] ∧ t.freeCount = 256 ∧ t.hold = true
      ∧ (∀ i : Slot, vget t.tc.gens i = vget s.tc.gens i + BitVec.ofNat 4 (s.slotCount i))
      ∧ (∀ k : KeyNo, vget t.tau.keys k = { vget s.tau.keys k with lost := min 16777215 ((vget s.tau.keys k).lost + s.keyCount k) })
      ∧ (∀ o : OutletNo, t.outlet o = { s.outlet o with
          committed := 0
          latest := none
          request := none
          strokeSet := none
          rack := if (s.outlet o).rack = .closing then .swapReady else (s.outlet o).rack })
      ∧ t.tau.outlets = s.tau.outlets
      ∧ t.tau.latches = s.tau.latches ||| 0x80 ||| (if ∃ o : OutletNo, (s.outlet o).rack = .closing then 0x01 else 0)
      ∧ t.ilc = { s.ilc with l := s.ilc.e }
      ∧ t.tau.device = (if a = !a₀ ∧ b = !b₀ then { s.tau.device with encoderFaults := min 16777215 (s.tau.device.encoderFaults + 1) }
          else { s.tau.device with trackLosses := min 16777215 (s.tau.device.trackLosses + 1) })
      ∧ t = { s with bpu := t.bpu, tc := t.tc, outlets := t.outlets, ilc := t.ilc, service := t.service, tau := { s.tau with keys := t.tau.keys, device := t.tau.device, latches := t.tau.latches },
                     pins := { s.pins with encA := a, encB := b } })
  ∧ ∀ (s u : State) (a₀ b₀ a b : Bool), s.bpu.encA.accepted = some a₀ → s.bpu.encB.accepted = some b₀ → s.service = .failsafe →
    u = { s with
      bpu := { s.bpu with encA := { s.bpu.encA with accepted := some a, count := 0 }, encB := { s.bpu.encB with accepted := some b, count := 0 } }
      pins := { s.pins with encA := a, encB := b } } →
    ((a₀, b₀, a, b) ∈ (if s.params.encInvert then forwardRows else reverseRows) → s.bpu.reverseExcess = false →
      s.params.reverseAllow < (s.bpu.hwm - (s.bpu.position - 1)).toNat →
      exec (.encoderStep a b) s = .next { u with
        bpu := { u.bpu with position := s.bpu.position - 1, reverseExcess := true, windowCount := s.bpu.windowCount - 1 }
        tau := { s.tau with device := { s.tau.device with trackLosses := min 16777215 (s.tau.device.trackLosses + 1) } } })
    ∧ (a = !a₀ → b = !b₀ → s.bpu.errorLevel = 15 →
      exec (.encoderStep a b) s = .next { u with
        bpu := { u.bpu with errorLevel := 16, windowIllegal := true }
        tau := { s.tau with device := { s.tau.device with encoderFaults := min 16777215 (s.tau.device.encoderFaults + 1) } } })

/-- R10, R12, R13, R16 (SPEED_WINDOW_EXPIRY, STALL): at a window's expiry M is the window count brought into 0 to 4,095, V becomes V − floor(V/8) + 2M, or 0 when M = 0 and V is below 16, the
error level falls by 1 in a clean window, and the next window begins; a stall that a tick has brought about raises BELT once, whatever STALL_TIME has been set to since that tick. Nothing
else changes, and an event that the last tick has not brought about, or a window that a write of W has ended, changes nothing (the model's choice, log 3). -/
def Obligations.SpeedWindowAndStallAtTheirFigures : Prop :=
  ∀ s : State,
    (Event.windowExpiry ∈ s.due ∧ 0 < s.bpu.windowTimer →
      ∀ m : Nat, m = (if s.bpu.windowCount < 0 then 0 else if 4095 < s.bpu.windowCount then 4095 else s.bpu.windowCount.toNat) →
      exec .speedWindowExpiry s = .next { s with
        due := s.due.erase .windowExpiry
        bpu := { s.bpu with
          v := if m = 0 ∧ s.bpu.v < 16 then 0 else s.bpu.v - s.bpu.v / 8 + 2 * m
          errorLevel := if s.bpu.windowIllegal then s.bpu.errorLevel else s.bpu.errorLevel - 1
          windowIllegal := false
          windowTimer := 0
          windowCount := 0 } })
    ∧ (¬(Event.windowExpiry ∈ s.due ∧ 0 < s.bpu.windowTimer) → exec .speedWindowExpiry s = .next s)
    ∧ (Event.stall ∈ s.due ∧ s.bpu.stallRaised = false →
      exec .stall s = .next (({ s with due := s.due.erase .stall, bpu := { s.bpu with stallRaised := true } } : State).withLatches 0x04))
    ∧ (¬(Event.stall ∈ s.due ∧ s.bpu.stallRaised = false) → exec .stall s = .next s)

/-- R11, R12, R16, R92, R96, R101, R104, R105, R107, R112, R113, R114, R126, R142, R144, R147 (MILLISECOND_TICK): every timer of the part counts the tick where its rule has it count, saturating where the
rule says so; every RACK, EYE, SWAP and HOME line is sampled once into its filter, the eye's return to clear and the button's release being accepted within the tick; nothing else changes but
the events that come about. A chute timer counts by the level of the eye accepted before the tick, or by the first level at the tick that ends the acquisition (the model's choice, log 10), and
stays at 0 in acquisition. What an earlier tick has left is taken first, each event as its own command would take it, or dropped when it no longer stands (the model's choice, log 2). -/
def Obligations.MillisecondTickCountsEveryTimer : Prop :=
  ∀ (lines : LineSample) (s : State),
    (s.due = [] → ∃ t, exec (.millisecondTick lines) s = .next t
      ∧ t.bpu = { s.bpu with
          windowTimer := s.bpu.windowTimer + 1
          stallTimer := if lines.driveOn = true ∧ s.bpu.v = 0 then min 10000 (s.bpu.stallTimer + 1) else 0
          stallRaised := if lines.driveOn = true ∧ s.bpu.v = 0 then s.bpu.stallRaised else false }
      ∧ t.oc.lampCycle = (s.oc.lampCycle + 1) % 1000
      ∧ t.ilc = (match s.ilc.link with
          | .offline => s.ilc
          | .syncing => { s.ilc with syncTimer := min 1000 (s.ilc.syncTimer + 1), beaconTimer := min 50 (s.ilc.beaconTimer + 1) }
          | .active => { s.ilc with silence := min 501 (s.ilc.silence + 1), beaconTimer := min 50 (s.ilc.beaconTimer + 1) })
      ∧ (∀ (o : OutletNo) (x y : Outlet), x = s.outlet o → y = t.outlet o →
          Sampled (fun _ => false) s.params.rackDebounce (lines.rack.getLsbD o.val) x.rackFilter y.rackFilter
          ∧ Sampled (fun _ => false) s.params.eyeFilter (lines.home.getLsbD o.val) x.homeFilter y.homeFilter
          ∧ Sampled (fun level => !level) s.params.eyeFilter (lines.eye.getLsbD o.val) x.eyeFilter y.eyeFilter
          ∧ Sampled (fun level => !level) 30 (lines.swap.getLsbD o.val) x.buttonFilter y.buttonFilter
          ∧ ∀ level : Option Bool, level = (if x.eyeFilter.accepted = none then y.eyeFilter.accepted else x.eyeFilter.accepted) →
            y = { x with
              rackFilter := y.rackFilter
              homeFilter := y.homeFilter
              eyeFilter := y.eyeFilter
              buttonFilter := y.buttonFilter
              blockTimer := if level = some true then min 10000 (x.blockTimer + 1) else 0
              clearTimer := if level = some false then min 5000 (x.clearTimer + 1) else 0
              strokeTimer := if x.paddle = .stroke then min 255 (x.strokeTimer + 1) else x.strokeTimer
              recoverTimer := if x.paddle = .recover then min 1000 (x.recoverTimer + 1) else x.recoverTimer
              confirmTimer := if x.strokeSet = none then x.confirmTimer else min 2000 (x.confirmTimer + 1) })
      ∧ t.pins = { s.pins with lines := lines }
      ∧ t = { s with time := t.time, bpu := t.bpu, oc := t.oc, ilc := t.ilc, outlets := t.outlets, pins := t.pins, due := t.due })
    ∧ ∀ e rest, s.due = e :: rest →
      (s.stands e = false → exec (.millisecondTick lines) s = exec (.millisecondTick lines) { s with due := rest })
      ∧ (s.stands e = true → ∃ u, exec (s.commandOf e) s = .next u ∧ exec (.millisecondTick lines) s = exec (.millisecondTick lines) u)

/-- R12, R16, R92, R93, R94, R96, R101, R102, R104, R105, R112 to R115, R128, R142, R144, R147 (MILLISECOND_TICK): an event comes about at a tick exactly when the timer or
filter that its rule names has reached its figure. -/
def Obligations.EventsComeAboutAtTheirTick : Prop :=
  ∀ (lines : LineSample) (s : State), ∃ t, exec (.millisecondTick lines) s = .next t
    ∧ (Event.windowExpiry ∈ t.due ↔ t.params.window ≤ t.bpu.windowTimer)
    ∧ (Event.stall ∈ t.due ↔ t.params.stallTime ≤ t.bpu.stallTimer ∧ t.bpu.stallRaised = false)
    ∧ (Event.syncTimeout ∈ t.due ↔ t.ilc.link = .syncing ∧ t.params.syncTimeout ≤ t.ilc.syncTimer ∧ t.ilc.syncFrames < 2)
    ∧ (Event.linkSilence ∈ t.due ↔ t.ilc.link = .active ∧ t.params.linkSilence < t.ilc.silence)
    ∧ (Event.beacon ∈ t.due ↔ t.ilc.link ≠ .offline ∧ t.params.beaconPeriod ≤ t.ilc.beaconTimer)
    ∧ ∀ o : OutletNo,
      (Event.strokeEnd o ∈ t.due ↔ (t.outlet o).paddle = .stroke ∧ (t.outlet o).strokeFigure ≤ (t.outlet o).strokeTimer)
      ∧ (Event.recoveryEnd o ∈ t.due ↔ (t.outlet o).paddle = .recover ∧ 1 ≤ (t.outlet o).recoverTimer
          ∧ (t.outlet o).recoverFigure ≤ (t.outlet o).recoverTimer ∧ (t.outlet o).homeFilter.accepted = some true)
      ∧ (Event.homeTimeout o ∈ t.due ↔ (t.outlet o).paddle = .recover ∧ (t.outlet o).homeFigure ≤ (t.outlet o).recoverTimer
          ∧ (t.outlet o).homeFilter.accepted ≠ some true)
      ∧ (Event.confirmExpiry o ∈ t.due ↔ (t.outlet o).strokeSet ≠ none ∧ (t.outlet o).windowFigure ≤ (t.outlet o).confirmTimer)
      ∧ (Event.chuteBlocked o ∈ t.due ↔ (t.outlet o).blocked = false ∧ t.params.chuteBlockTime ≤ (t.outlet o).blockTimer)
      ∧ (Event.chuteClear o ∈ t.due ↔ (t.outlet o).blocked = true ∧ t.params.chuteClearTime ≤ (t.outlet o).clearTimer)
      ∧ (Event.rackArrival o ∈ t.due ↔ (t.outlet o).rackFilter.accepted = some false ∧ t.params.rackDebounce ≤ (t.outlet o).rackFilter.count)
      ∧ (Event.rackRemoval o ∈ t.due ↔ (t.outlet o).rackFilter.accepted = some true ∧ t.params.rackDebounce ≤ (t.outlet o).rackFilter.count)
      ∧ (Event.swapPress o ∈ t.due ↔ (t.outlet o).buttonFilter.accepted = some false ∧ 30 ≤ (t.outlet o).buttonFilter.count)
      ∧ (Event.passage o ∈ t.due ↔ (t.outlet o).eyeFilter.accepted = some false ∧ t.params.eyeFilter ≤ (t.outlet o).eyeFilter.count)
      ∧ (Event.homeLevel o ∈ t.due ↔ (t.outlet o).homeFilter.accepted ≠ none ∧ t.params.eyeFilter ≤ (t.outlet o).homeFilter.count)

/-! ### The outlets and the paddles -/

/-- R112, R113, R114, R115, R122, R123 (STROKE_END, RECOVERY_END, HOME_LEVEL_ACCEPTED): a stroke whose timer has reached its figure ends: the slot is freed, the paddle enters RECOVER with
its figures read, and a grant decision follows; a recovery that has reached its recover time with HOME home makes the paddle IDLE, and a grant decision
follows. A command whose event the last tick has not brought about changes nothing (the model's choice, log 3). A HOME level is taken by the filter with its count at 0, and nothing else changes but that in
RECOVER the recovery's end or the home timeout comes about with it, at the tick of the acceptance (the model's choice, log 26); a level already accepted changes nothing (the model's choice, log 4). -/
def Obligations.StrokeAndRecoveryEndAtTheirFigures : Prop :=
  (∀ (o : OutletNo) (s : State),
    (Event.strokeEnd o ∈ s.due ∧ (s.outlet o).paddle = .stroke ∧ (s.outlet o).strokeFigure ≤ (s.outlet o).strokeTimer →
      ∃ t g, exec (.strokeEnd o) s = .next t
        ∧ GrantDecision t (({ s with due := s.due.erase (.strokeEnd o), aa := { slotsInUse := s.aa.slotsInUse - 1 } } : State).withOutlet o
            { s.outlet o with
              paddle := .recover
              recoverTimer := 0
              recoverFigure := (s.outlet o).fields.recoverTime
              homeFigure := (s.outlet o).fields.homeTimeout }) g)
    ∧ (¬(Event.strokeEnd o ∈ s.due ∧ (s.outlet o).paddle = .stroke ∧ (s.outlet o).strokeFigure ≤ (s.outlet o).strokeTimer) →
      exec (.strokeEnd o) s = .next s)
    ∧ (Event.recoveryEnd o ∈ s.due ∧ (s.outlet o).paddle = .recover ∧ 1 ≤ (s.outlet o).recoverTimer
          ∧ (s.outlet o).recoverFigure ≤ (s.outlet o).recoverTimer ∧ (s.outlet o).homeFilter.accepted = some true →
      ∃ t g, exec (.recoveryEnd o) s = .next t
        ∧ GrantDecision t (({ s with due := s.due.erase (.recoveryEnd o) } : State).withOutlet o { s.outlet o with paddle := .idle }) g)
    ∧ (¬(Event.recoveryEnd o ∈ s.due ∧ (s.outlet o).paddle = .recover ∧ 1 ≤ (s.outlet o).recoverTimer
          ∧ (s.outlet o).recoverFigure ≤ (s.outlet o).recoverTimer ∧ (s.outlet o).homeFilter.accepted = some true) →
      exec (.recoveryEnd o) s = .next s))
  ∧ ∀ (o : OutletNo) (home : Bool) (s : State),
    ((s.outlet o).homeFilter.accepted ≠ some home → ∃ t, exec (.homeLevelAccepted o home) s = .next t
      ∧ t = ({ s with due := t.due } : State).withOutlet o
          { s.outlet o with homeFilter := { accepted := some home, run := (s.outlet o).homeFilter.run, count := 0 } }
      ∧ t.due = s.due.erase (.homeLevel o)
          ++ (if (s.outlet o).paddle = .recover ∧ 1 ≤ (s.outlet o).recoverTimer ∧ (s.outlet o).recoverFigure ≤ (s.outlet o).recoverTimer ∧ home = true
              then [Event.recoveryEnd o] else [])
          ++ (if (s.outlet o).paddle = .recover ∧ (s.outlet o).homeFigure ≤ (s.outlet o).recoverTimer ∧ home = false
              then [Event.homeTimeout o] else []))
    ∧ ((s.outlet o).homeFilter.accepted = some home → exec (.homeLevelAccepted o home) s = .next s)

/-- R115, R116, R106 (HOME_TIMEOUT): a paddle in RECOVER that reaches its home timeout with HOME away or in acquisition is FAULTED and raises OUTLET, and no record is left
ROUTED or DUE at the outlet; where none was, nothing else changes. Otherwise nothing changes (the model's choice, log 3). -/
def Obligations.HomeTimeoutFaultsThePaddle : Prop :=
  ∀ (o : OutletNo) (s : State),
    (Event.homeTimeout o ∈ s.due → (s.outlet o).paddle = .recover → (s.outlet o).homeFigure ≤ (s.outlet o).recoverTimer →
      (s.outlet o).homeFilter.accepted ≠ some true →
      ∃ t, exec (.homeTimeout o) s = .next t ∧ (t.outlet o).paddle = .faulted ∧ t.noneWaiting o ∧ t.tau.latches &&& 0x02 = 0x02
        ∧ t.aa = s.aa ∧ (∀ j, (t.outlet j).strokeSet = (s.outlet j).strokeSet ∧ (t.outlet j).fill = (s.outlet j).fill
          ∧ (t.outlet j).missRun = (s.outlet j).missRun ∧ (j ≠ o → (t.outlet j).paddle = (s.outlet j).paddle))
        ∧ t.bpu = s.bpu ∧ t.pins = s.pins ∧ t.due = s.due.erase (.homeTimeout o) ∧ KeptByWork t s
        ∧ (s.noneWaiting o →
          t = (({ s with due := s.due.erase (.homeTimeout o) } : State).withOutlet o { s.outlet o with paddle := .faulted }).withLatches 0x02))
    ∧ (¬(Event.homeTimeout o ∈ s.due ∧ (s.outlet o).paddle = .recover ∧ (s.outlet o).homeFigure ≤ (s.outlet o).recoverTimer
          ∧ (s.outlet o).homeFilter.accepted ≠ some true) →
      exec (.homeTimeout o) s = .next s)

/-- R128, R39, R41, R98, R106, R116, R122, R166 (CONFIRM_WINDOW_EXPIRY): a held set whose confirm timer reaches its figure is missed: its records are CARRIED with
STROKE_MISS, and those whose end points lie at or behind the position are retired END in the same event; their units leave committed (a CLOSING rack left with none is SWAP_READY), misses and the miss run rise by 1. Below MISS_LIMIT a grant decision follows, and so it does at a paddle already
FAULTED, where R128 can be read to have none (the model's choice, log 11). A miss that brings the miss run to MISS_LIMIT faults a paddle that is not FAULTED: one left from STROKE gives up its slot, with a grant
decision, OUTLET is raised, and what waits at the outlet is re-routed (the order is the model's choice, log 11); no record is left ROUTED or DUE there, and the set is no longer held. A miss that comes about at no tick
changes nothing (the model's choice, log 3). -/
def Obligations.AMissCarriesTheSetAndMayFaultThePaddle : Prop :=
  (∀ (o : OutletNo) (s missed : State) (set : StrokeSet), Event.confirmExpiry o ∈ s.due → (s.outlet o).strokeSet = some set →
    (s.outlet o).windowFigure ≤ (s.outlet o).confirmTimer → s.tableLaw → s.tau.bounded → (∃ r ∈ s.tc.records, set.members.contains r.tag) →
    (∀ r ∈ s.tc.records, set.members.contains r.tag → ∃ e f u, r.route = some { outlet := o, entry := e, firePoint := f, units := u }) →
    ∀ units : Nat, units = ((s.tc.records.filter (fun r => set.members.contains r.tag)).map (fun r => (r.route.map (·.units)).getD 0)).sum →
    missed = { s.withOutlet o { (s.outlet o).less units with strokeSet := none, missRun := min 15 ((s.outlet o).missRun + 1) } with
      due := s.due.erase (.confirmExpiry o)
      tc := { s.tc with records := s.tc.records.map (fun r =>
        if set.members.contains r.tag then
          { r with state := .carried, carry := some .strokeMiss, route := none, cluster := none, waypoint := some (s.endPoint r) }
        else r) }
      tau := { s.tau with
        latches := s.tau.latches ||| (s.outlet o).emptiedBy units
        outlets := s.tau.outlets.set o.val { vget s.tau.outlets o with misses := min 16777215 ((vget s.tau.outlets o).misses + 1) } } } →
    ((s.outlet o).missRun + 1 < s.params.missLimit ∨ (s.outlet o).paddle = .faulted →
      ∃ v t g, exec (.confirmWindowExpiry o) s = .next t ∧ missed.endsAtOnce (s.endedOf (s.tc.records.filter (fun r => set.members.contains r.tag))) v
        ∧ GrantDecision t v g)
    ∧ (s.params.missLimit ≤ min 15 ((s.outlet o).missRun + 1) → (s.outlet o).paddle ≠ .faulted → s.booksLaw → s.endsAhead s.bpu.position s.tc.records →
      ∃ t u : State, exec (.confirmWindowExpiry o) s = .next t
        ∧ ((s.outlet o).paddle = .stroke →
            ∃ g, GrantDecision u { missed.withOutlet o { missed.outlet o with paddle := .faulted } with aa := { slotsInUse := s.aa.slotsInUse - 1 } } g)
        ∧ ((s.outlet o).paddle ≠ .stroke → u = missed.withOutlet o { missed.outlet o with paddle := .faulted })
        ∧ ReroutesEach o (u.withLatches 0x02) (u.clustersAt o) t))
  ∧ ∀ (o : OutletNo) (s : State),
    (Event.confirmExpiry o ∈ s.due → (s.outlet o).strokeSet ≠ none → (s.outlet o).windowFigure ≤ (s.outlet o).confirmTimer →
      s.params.missLimit ≤ min 15 ((s.outlet o).missRun + 1) → (s.outlet o).paddle ≠ .faulted →
      ∃ t, exec (.confirmWindowExpiry o) s = .next t ∧ (t.outlet o).paddle = .faulted ∧ (t.outlet o).strokeSet = none
        ∧ (t.outlet o).missRun = min 15 ((s.outlet o).missRun + 1) ∧ t.tau.latches &&& 0x02 = 0x02 ∧ t.noneWaiting o
        ∧ (vget t.tau.outlets o).misses = min 16777215 ((vget s.tau.outlets o).misses + 1)
        ∧ t.bpu = s.bpu ∧ t.pins = s.pins ∧ t.due = s.due.erase (.confirmExpiry o) ∧ KeptByWork t s)
    ∧ (¬(Event.confirmExpiry o ∈ s.due ∧ (s.outlet o).strokeSet ≠ none ∧ (s.outlet o).windowFigure ≤ (s.outlet o).confirmTimer) →
      exec (.confirmWindowExpiry o) s = .next s)

/-- R93, R96, R97, R98 (RACK_ARRIVAL, SWAP_PRESS, OUTLET_CLOSE, REOPEN): at an arrival the KEY lines are latched as the rack key, the rack is OPEN and fill is 0; nothing else changes and no attention is raised. A
press and a close take an OPEN rack to CLOSING or, with nothing committed, SWAP_READY, and a FULL one to SWAP_READY, which raises RACK; a reopen takes CLOSING and SWAP_READY to OPEN, or to FULL with RACK when
fill has reached capacity. In ABSENT the requests are refused NO_RACK. An arrival or a press whose level is already accepted changes nothing (the model's choice, log 4). -/
def Obligations.RackStagesFollowArrivalPressCloseAndReopen : Prop :=
  (∀ (o : OutletNo) (key : KeyNo) (s : State),
    ((s.outlet o).rackFilter.accepted ≠ some true →
      exec (.rackArrival o key) s = .next (({ s with
        due := s.due.erase (.rackArrival o)
        pins := { s.pins with lines := { s.pins.lines with keys := s.pins.lines.keys.set o.val key } } } : State).withOutlet o
          { s.outlet o with
            rackFilter := { accepted := some true, run := (s.outlet o).rackFilter.run, count := 0 }
            rackKey := some key
            rack := .opened
            fill := 0 }))
    ∧ ((s.outlet o).rackFilter.accepted = some true → exec (.rackArrival o key) s = .next s))
  ∧ ∀ (o : OutletNo) (b : Byte) (s : State), b.toNat = o.val →
    ((s.outlet o).buttonFilter.accepted = some false →
      exec (.swapPress o) s = .next ((({ s with due := s.due.erase (.swapPress o) } : State).withOutlet o
        { s.outlet o with
          buttonFilter := { accepted := some true, run := (s.outlet o).buttonFilter.run, count := 0 }
          rack := (s.outlet o).pressed.1 }).withLatches (if (s.outlet o).pressed.2 then 0x01 else 0)))
    ∧ ((s.outlet o).buttonFilter.accepted = some true → exec (.swapPress o) s = .next s)
    ∧ ((s.outlet o).buttonFilter.accepted = none →
      exec (.swapPress o) s = .next (({ s with due := s.due.erase (.swapPress o) } : State).withOutlet o
        { s.outlet o with buttonFilter := { accepted := some true, run := (s.outlet o).buttonFilter.run, count := 0 } }))
    ∧ (s.sp.resetHold = false →
      ((s.outlet o).rack = .absent →
        exec (.outletClose b) s = .next (s.answered (.outletClose b) { status := .noRack, data := [] })
          ∧ exec (.reopen b) s = .next (s.answered (.reopen b) { status := .noRack, data := [] }))
      ∧ ((s.outlet o).rack ≠ .absent →
        exec (.outletClose b) s = .next (((s.withOutlet o { s.outlet o with rack := (s.outlet o).pressed.1 }).withLatches
          (if (s.outlet o).pressed.2 then 0x01 else 0)).answered (.outletClose b) { status := .ok, data := [] }))
      ∧ ((s.outlet o).rack = .opened ∨ (s.outlet o).rack = .full →
        exec (.reopen b) s = .next (s.answered (.reopen b) { status := .ok, data := [] }))
      ∧ ((s.outlet o).rack = .closing ∨ (s.outlet o).rack = .swapReady →
        exec (.reopen b) s = .next (((s.withOutlet o { s.outlet o with
            rack := if (s.outlet o).fill < (s.outlet o).fields.capacity then .opened else .full }).withLatches
          (if (s.outlet o).fill < (s.outlet o).fields.capacity then 0 else 0x01)).answered (.reopen b) { status := .ok, data := [] })))

/-- R94, R40, R106, R122, R166, R196, R197 (RACK_REMOVAL): the rack is ABSENT without a key, fill is 0, no record is left ROUTED or DUE at the outlet, and when fill was above 0 the rack is
counted exchanged under its key and outlet; with no stroke set held and nothing waiting, nothing else changes. A stroke set held at the removed rack is retired LOST under its records' keys (step 3), after the re-routes (step 2) and before the count (step 4), whatever
the fill and whatever waits there, and the end of the set is a grant occasion. A removal where present is not the accepted level changes nothing (the model's choice, log 4). -/
def Obligations.RackRemovalClearsTheStation : Prop :=
  (∀ (o : OutletNo) (s : State),
    ((s.outlet o).rackFilter.accepted = some true → s.tau.bounded → ∃ t, exec (.rackRemoval o) s = .next t
      ∧ (t.outlet o).rack = .absent ∧ (t.outlet o).rackKey = none ∧ (t.outlet o).fill = 0 ∧ t.noneWaiting o
      ∧ (t.outlet o).missRun = (s.outlet o).missRun
      ∧ (vget t.tau.outlets o).racks = min 16777215 ((vget s.tau.outlets o).racks + (if 0 < (s.outlet o).fill then 1 else 0))
      ∧ (∀ k : KeyNo, (vget t.tau.keys k).racks = min 16777215 ((vget s.tau.keys k).racks
          + (if 0 < (s.outlet o).fill ∧ (s.outlet o).rackKey = some k then 1 else 0)))
      ∧ ((s.outlet o).strokeSet = none → s.noneWaiting o →
          t = ({ s with due := s.due.erase (.rackRemoval o), tau := t.tau } : State).withOutlet o
              { s.outlet o with
                rackFilter := { accepted := some false, run := (s.outlet o).rackFilter.run, count := 0 }
                rack := .absent
                rackKey := none
                fill := 0 }
            ∧ t.tau.device = s.tau.device ∧ t.tau.latches = s.tau.latches ∧ t.tau.enables = s.tau.enables ∧ t.tau.lineMap = s.tau.lineMap
            ∧ (∀ k, vget t.tau.keys k = { vget s.tau.keys k with racks := (vget t.tau.keys k).racks })
            ∧ ∀ j, vget t.tau.outlets j = { vget s.tau.outlets j with racks := (vget t.tau.outlets j).racks } ∧ (j ≠ o → vget t.tau.outlets j = vget s.tau.outlets j)))
    ∧ ((s.outlet o).rackFilter.accepted ≠ some true → exec (.rackRemoval o) s = .next s))
  ∧ ∀ (o : OutletNo) (s : State) (set : StrokeSet), (s.outlet o).rackFilter.accepted = some true → s.noneWaiting o →
    (s.outlet o).strokeSet = some set → (s.outlet o).fill = 0 → s.tableLaw → s.wholeClusters set.members →
    (∀ j l, (s.outlet j).latest = some l → l.owner ∉ set.members) → s.tau.bounded →
    ∃ u t g, exec (.rackRemoval o) s = .next t ∧ GrantDecision t u g ∧ TakenOut u s set.members
      ∧ (∀ k, vget u.tau.keys k = { vget s.tau.keys k with lost := min 16777215 ((vget s.tau.keys k).lost + s.keyCountIn set.members k) })
      ∧ u = { (s.withOutlet o { s.outlet o with
                rackFilter := { accepted := some false, run := (s.outlet o).rackFilter.run, count := 0 }
                rack := .absent
                rackKey := none
                committed := (s.outlet o).committed - set.units
                strokeSet := none }) with
              due := s.due.erase (.rackRemoval o)
              tc := u.tc
              service := u.service
              ilc := u.ilc
              tau := { s.tau with keys := u.tau.keys } }
  ∧ ∀ (o : OutletNo) (s : State) (set : StrokeSet), (s.outlet o).rackFilter.accepted = some true → (s.outlet o).strokeSet = some set → s.booksLaw →
    s.endsAhead s.bpu.position s.tc.records → (∀ j l, (s.outlet j).latest = some l → l.owner ∉ set.members) → s.tau.bounded →
    ∃ u v t g, exec (.rackRemoval o) s = .next t
      ∧ ReroutesEach o (({ s with due := s.due.erase (.rackRemoval o) } : State).withOutlet o { s.outlet o with
          rackFilter := { accepted := some false, run := (s.outlet o).rackFilter.run, count := 0 }, rack := .absent, rackKey := none }) (s.clustersAt o) u
      ∧ TakenOut v u set.members
      ∧ (∀ k, vget v.tau.keys k = { vget u.tau.keys k with lost := min 16777215 ((vget u.tau.keys k).lost + u.keyCountIn set.members k) })
      ∧ v = { u.withOutlet o { u.outlet o with committed := (u.outlet o).committed - set.units, strokeSet := none } with
              tc := v.tc
              service := v.service
              ilc := v.ilc
              tau := { u.tau with keys := v.tau.keys } }
      ∧ GrantDecision t (v.rackGone o (s.outlet o).rackKey) g

/-- R101, R102, R103, R89, R99 (PASSAGE with no stroke set held): the stray is counted, and where a rack stands with room beside fill and committed, fill rises by 1: an OPEN rack
brought to capacity is FULL, and that or a crossing of the warn level raises RACK. A passage where blocked is already accepted changes nothing (the model's choice, log 4). -/
def Obligations.StrayPassageTakesFreeRoomAlone : Prop :=
  ∀ (o : OutletNo) (s : State), (s.outlet o).strokeSet = none →
    ((s.outlet o).eyeFilter.accepted = some false →
      ∀ (room full warn : Bool),
      room = decide ((s.outlet o).rack ≠ .absent ∧ (s.outlet o).fill + (s.outlet o).committed < (s.outlet o).fields.capacity) →
      full = (room && decide ((s.outlet o).rack = .opened ∧ (s.outlet o).fields.capacity ≤ (s.outlet o).fill + 1)) →
      warn = (room && decide (0 < (s.outlet o).fields.warnLevel ∧ (s.outlet o).fill < (s.outlet o).fields.warnLevel
        ∧ (s.outlet o).fields.warnLevel ≤ (s.outlet o).fill + 1)) →
      exec (.passage o) s = .next ({ (s.withOutlet o { s.outlet o with
          eyeFilter := { accepted := some true, run := (s.outlet o).eyeFilter.run, count := 0 }
          fill := if room then (s.outlet o).fill + 1 else (s.outlet o).fill
          rack := if full then .full else (s.outlet o).rack }) with
        due := s.due.erase (.passage o)
        tau := { s.tau with
          latches := if full || warn then s.tau.latches ||| 0x01 else s.tau.latches
          outlets := s.tau.outlets.set o.val { vget s.tau.outlets o with strays := min 16777215 ((vget s.tau.outlets o).strays + 1) } } }))
    ∧ ((s.outlet o).eyeFilter.accepted = some true → exec (.passage o) s = .next s)
    ∧ ((s.outlet o).eyeFilter.accepted = none →
      exec (.passage o) s = .next (({ s with due := s.due.erase (.passage o) } : State).withOutlet o
        { s.outlet o with eyeFilter := { accepted := some true, run := (s.outlet o).eyeFilter.run, count := 0 } }))

/-- R100, R127, R196, R197 (PASSAGE with a stroke set held): the passage confirms the whole set: its records are retired DELIVERED under their keys, its units move from committed to fill, the
items and units tallies rise, the miss run is 0, the rack is judged FULL, SWAP_READY and at its warn level, and a grant decision follows. -/
def Obligations.PassageConfirmsTheStrokeSet : Prop :=
  ∀ (o : OutletNo) (s : State) (set : StrokeSet), (s.outlet o).eyeFilter.accepted = some false → (s.outlet o).strokeSet = some set →
    s.tableLaw → s.wholeClusters set.members → (∀ j l, (s.outlet j).latest = some l → l.owner ∉ set.members) → s.tau.bounded →
    set.units ≤ (s.outlet o).committed →
    ∀ (fill committed : Nat) (full warn emptied : Bool), fill = (s.outlet o).fill + set.units → committed = (s.outlet o).committed - set.units →
    full = decide ((s.outlet o).rack = .opened ∧ (s.outlet o).fields.capacity ≤ fill) →
    warn = decide (0 < (s.outlet o).fields.warnLevel ∧ (s.outlet o).fill < (s.outlet o).fields.warnLevel ∧ (s.outlet o).fields.warnLevel ≤ fill) →
    emptied = decide ((s.outlet o).rack = .closing ∧ committed = 0) →
    ∃ u t g, exec (.passage o) s = .next t ∧ GrantDecision t u g ∧ TakenOut u s set.members
      ∧ (∀ k, vget u.tau.keys k = { vget s.tau.keys k with delivered := min 16777215 ((vget s.tau.keys k).delivered + s.keyCountIn set.members k) })
      ∧ u = { (s.withOutlet o { s.outlet o with
                eyeFilter := { accepted := some true, run := (s.outlet o).eyeFilter.run, count := 0 }
                fill := fill
                committed := committed
                missRun := 0
                strokeSet := none
                rack := if full then .full else if emptied then .swapReady else (s.outlet o).rack }) with
              due := s.due.erase (.passage o)
              tc := u.tc
              service := u.service
              ilc := u.ilc
              tau := { s.tau with
                keys := u.tau.keys
                latches := if full || warn || emptied then s.tau.latches ||| 0x01 else s.tau.latches
                outlets := s.tau.outlets.set o.val { vget s.tau.outlets o with
                  items := min 16777215 ((vget s.tau.outlets o).items + set.members.length)
                  units := min 16777215 ((vget s.tau.outlets o).units + set.units) } } }

/-- R104, R105, R106 (CHUTE_BLOCKED, CHUTE_CLEAR): a chute whose block timer has reached CHUTE_BLOCK_TIME at the last tick is BLOCKED, raises OUTLET and leaves no record ROUTED or DUE at its outlet;
one whose clear timer has reached CHUTE_CLEAR_TIME is CLEAR, and nothing else changes. Otherwise nothing changes (the model's choice, log 3). -/
def Obligations.ChuteBlocksAndClears : Prop :=
  ∀ (o : OutletNo) (s : State),
    (Event.chuteBlocked o ∈ s.due → (s.outlet o).blocked = false →
      ∃ t, exec (.chuteBlocked o) s = .next t ∧ (t.outlet o).blocked = true ∧ t.tau.latches &&& 0x02 = 0x02 ∧ t.noneWaiting o
        ∧ t.aa = s.aa ∧ (∀ j, (t.outlet j).paddle = (s.outlet j).paddle ∧ (t.outlet j).strokeSet = (s.outlet j).strokeSet
          ∧ (t.outlet j).fill = (s.outlet j).fill ∧ (t.outlet j).fields = (s.outlet j).fields)
        ∧ t.bpu = s.bpu ∧ t.pins = s.pins ∧ t.due = s.due.erase (.chuteBlocked o)
        ∧ (s.noneWaiting o →
          t = (({ s with due := s.due.erase (.chuteBlocked o) } : State).withOutlet o { s.outlet o with blocked := true }).withLatches 0x02))
    ∧ (¬(Event.chuteBlocked o ∈ s.due ∧ (s.outlet o).blocked = false) →
      exec (.chuteBlocked o) s = .next s)
    ∧ (Event.chuteClear o ∈ s.due → (s.outlet o).blocked = true →
      exec (.chuteClear o) s = .next (({ s with due := s.due.erase (.chuteClear o) } : State).withOutlet o { s.outlet o with blocked := false }))
    ∧ (¬(Event.chuteClear o ∈ s.due ∧ (s.outlet o).blocked = true) →
      exec (.chuteClear o) s = .next s)

/-- R107, R108, R112, R202, R15: the lines that follow the state: the lamp by the first row that holds and at its place in the cycle, FIRE in STROKE, HOLD in FAILSAFE or while an ENABLED
outlet with hold-on-block is BLOCKED, ATTN_A and ATTN_B while an enabled latch is mapped to them, and the belt RUNNING while V is above 0. -/
def Obligations.OutputLinesFollowTheState : Prop :=
  ∀ (s : State) (o : OutletNo),
    ((s.outlet o).lamp =
      if (s.outlet o).paddle = .faulted ∨ (s.outlet o).blocked = true then .fast
      else if (s.outlet o).rack = .swapReady then .steady
      else if (s.outlet o).rack = .full ∨ (s.outlet o).rack = .closing ∨ (0 < (s.outlet o).fields.warnLevel ∧ (s.outlet o).fields.warnLevel ≤ (s.outlet o).fill) then .slow
      else .off)
    ∧ (s.lampLit o = true ↔ (s.outlet o).lamp = .steady ∨ ((s.outlet o).lamp = .slow ∧ s.oc.lampCycle < 500)
        ∨ ((s.outlet o).lamp = .fast ∧ s.oc.lampCycle % 250 < 125))
    ∧ (s.fire o = true ↔ (s.outlet o).paddle = .stroke)
    ∧ (s.hold = true ↔ s.service = .failsafe ∨ ∃ j : OutletNo, (s.outlet j).enabled = true ∧ (s.outlet j).fields.holdOnBlock = true ∧ (s.outlet j).blocked = true)
    ∧ (s.attnA = true ↔ ∃ i < 8, s.tau.latches.getLsbD i = true ∧ s.tau.enables.getLsbD i = true ∧ s.tau.lineMap.getLsbD i = false)
    ∧ (s.attnB = true ↔ ∃ i < 8, s.tau.latches.getLsbD i = true ∧ s.tau.enables.getLsbD i = true ∧ s.tau.lineMap.getLsbD i = true)
    ∧ (s.beltRunning = true ↔ 0 < s.bpu.v)

/-! ### Decisions and waypoints -/

/-- R68 to R75: the acceptance test of one outlet for one cluster led from stamp `s0`: the first of the eight conditions that fails, in R68's order, or else the fire point
F = (S0 + D_o + c + trim − lead) mod 2^24, c = floor((span + 1) / 2), lead = distance(La). -/
def Obligations.AcceptanceTestGivesTheFirstFailure : Prop :=
  ∀ (s : State) (o : OutletNo) (s0 : Pos) (ms : List Record) (sp lead cycle : Nat) (f : Pos),
    (∀ r ∈ ms, (plus r.stamp r.length - s0).toNat ≤ sp) → (sp = 0 ∨ ∃ r ∈ ms, (plus r.stamp r.length - s0).toNat = sp) →
    (∀ t d : Nat, (t = (s.outlet o).fields.latency ∧ d = lead ∨ t = (s.outlet o).fields.strokeTime + (s.outlet o).fields.recoverTime ∧ d = cycle) →
      d = min 4095 ((s.bpu.v * t + 8 * s.params.window) / (16 * s.params.window))) →
    (f.toNat : Int) = (s0.toNat + (s.outlet o).fields.position + ((sp + 1) / 2 : Nat) + (s.outlet o).fields.trim - lead) % 16777216 →
    s.accept o s0 ms =
      if (s.outlet o).enabled = false ∨ (s.outlet o).rack ≠ .opened ∨ (s.outlet o).blocked = true ∨ (s.outlet o).paddle = .faulted then .error .notOpen
      else if s.params.dEnd ≤ (s.outlet o).fields.position then .error .beyondEnd
      else if ∃ r ∈ ms, (s.outlet o).fields.acceptMask.getLsbD r.cls.val = false then .error .cls
      else if ∃ r ∈ ms, ∀ k, (s.outlet o).rackKey = some k → r.key ≠ k ∧ r.key ≠ 0 ∧ k ≠ 0 then .error .key
      else if (s.outlet o).fields.maxSpan < sp then .error .span
      else if (s.outlet o).fields.capacity < (s.outlet o).fill + (s.outlet o).committed + (ms.map (fun r => (s.classEntry r.cls).weight)).sum then .error .capacity
      else if 8388608 ≤ (f - s.bpu.position).toNat ∨ (f - s.bpu.position).toNat < s.params.armMargin then .error .late
      else if ∃ l, (s.outlet o).latest = some l ∧ min (f - l.point).toNat (l.point - f).toNat < cycle then .error .spacing
      else .ok f

/-- R18, R29, R32, R37, R39, R62 to R66, R76, R78, R79: a forward tick that reaches the decision point of a lone PENDING record decides it: the sampler advances when the class has
audit enable set, the walk starts at the audit head or the head, and a first entry that ends the walk routes the record or carries it. How a walk goes on from its first entry is
DecisionPointDecidesAWholeCluster. -/
def Obligations.DecisionPointDecidesALoneRecord : Prop :=
  ∀ (s : State) (a b : Bool) (r : Record) (e : ClassEntry) (v : BitVec 12) (picked : Bool) (start : Option RouteIx) (u : State) (q : Record),
    s.plainTick a b → s.tableLaw → s.loneAt r (s.bpu.position + 1) → r.state = .pending → r.route = none → e = s.classEntry r.cls →
    v = (if e.auditEnable = true then advanceSampler s.rd.sampler else s.rd.sampler) →
    picked = decide (e.auditEnable = true ∧ v.toNat % 2 ^ s.params.auditRate = 0 ∧ e.auditHead ≠ none) →
    start = (if picked then e.auditHead else e.head) →
    u = { s.moved a b with rd := { s.rd with sampler := v } } → q = { r with flags := { r.flags with audit := r.flags.audit || picked }, lastRefusal := none } →
    atOrBeyond (s.bpu.position + 1) (s.endPoint r) = false →
    (start = none → exec (.encoderStep a b) s = .next (u.withRecord r.tag (u.ride .noChain q)))
    ∧ ∀ i, start = some i →
      (vget s.rd.activeBank.routes i = .stop → exec (.encoderStep a b) s = .next (u.withRecord r.tag (u.ride .chainEnd q)))
      ∧ (∀ o chain f, vget s.rd.activeBank.routes i = .outlet o chain → u.accept o r.stamp [r] = .ok f →
          exec (.encoderStep a b) s = .next ((u.withRecord r.tag { q with
            state := .routed
            route := some { outlet := o, entry := i, firePoint := f, units := e.weight }
            waypoint := some f }).withOutlet o
              { s.outlet o with committed := (s.outlet o).committed + e.weight, latest := some { point := f, owner := r.tag } }))
      ∧ (∀ o why, vget s.rd.activeBank.routes i = .outlet o false → u.accept o r.stamp [r] = .error why →
          exec (.encoderStep a b) s = .next (u.withRecord r.tag (u.ride .chainEnd { q with lastRefusal := some why })))
      ∧ (∀ o why, vget s.rd.activeBank.routes i = .outlet o true → i = 255 → u.accept o r.stamp [r] = .error why →
          exec (.encoderStep a b) s = .next ({ (u.withRecord r.tag (u.ride .planCheck { q with lastRefusal := some why })).withLatches 0x40 with
            rd := { u.rd with planStatus := if s.rd.planStatus = none then some { cls := r.cls, entry := 255, kind := .pastEnd } else s.rd.planStatus }
            tau := { s.tau with
              latches := s.tau.latches ||| 0x40
              device := { s.tau.device with planChecks := min 16777215 (s.tau.device.planChecks + 1) } } }))

/-- R18, R29, R118, R119, R122, R126: a forward tick that reaches the fire point of a lone ROUTED record, where no other request waits: it is FIRED at once when the paddle is IDLE, no
stroke set is held and a slot is free; waits DUE for its late limit when not; and is CARRIED with FIRE_LATE at once under a late tolerance of 0. -/
def Obligations.FirePointFiresALoneRecord : Prop :=
  ∀ (s : State) (a b : Bool) (r : Record) (route : Route) (x : Outlet) (u : State) (late : Pos),
    s.plainTick a b → s.tableLaw → s.loneAt r (s.bpu.position + 1) → r.state = .routed → r.route = some route →
    route.firePoint = s.bpu.position + 1 → x = s.outlet route.outlet → u = s.moved a b → late = plus route.firePoint x.fields.lateTolerance →
    x.fields.lateTolerance ≤ 255 → atOrBeyond (s.bpu.position + 1) (s.endPoint r) = false → s.quiet →
    (x.paddle = .idle → x.strokeSet = none → s.aa.slotsInUse < s.params.airBudget →
      exec (.encoderStep a b) s = .next { ((u.withRecord r.tag { r with state := .fired, waypoint := none }).withOutlet route.outlet
          { x with
            paddle := .stroke
            strokeTimer := 0
            strokeFigure := x.fields.strokeTime
            strokeSet := some { members := [r.tag], units := route.units }
            confirmTimer := 0
            windowFigure := x.fields.confirmWindow
            latest := if ∃ l, x.latest = some l ∧ l.owner = r.tag then none else x.latest }).withOutletTally route.outlet
          { vget s.tau.outlets route.outlet with strokes := min 16777215 ((vget s.tau.outlets route.outlet).strokes + 1) } with
        aa := { slotsInUse := s.aa.slotsInUse + 1 } })
    ∧ (x.paddle ≠ .idle ∨ x.strokeSet ≠ none ∨ s.params.airBudget ≤ s.aa.slotsInUse →
      (0 < x.fields.lateTolerance →
        exec (.encoderStep a b) s = .next ((u.withRecord r.tag { r with state := .due, waypoint := some late }).withOutlet route.outlet
          { x with request := some (.deadline [r.tag] late route.units) }))
      ∧ (x.fields.lateTolerance = 0 →
        exec (.encoderStep a b) s = .next ((((u.withRecord r.tag (s.ride .fireLate r)).withOutlet route.outlet
          { x.less route.units with latest := if ∃ l, x.latest = some l ∧ l.owner = r.tag then none else x.latest }).withOutletTally route.outlet
          { vget s.tau.outlets route.outlet with abandoned := min 16777215 ((vget s.tau.outlets route.outlet).abandoned + 1) }).withLatches
            (x.emptiedBy route.units))))

/-- R18, R29, R39, R41, R118, R119, R166: a forward tick that reaches the fire point of a lone ROUTED record at an outlet where another request waits carries it with PADDLE_BUSY; one that
reaches the late limit of a lone DUE record carries it with FIRE_LATE and ends its request; one that reaches the end point of a CARRIED record retires it END. -/
def Obligations.ALoneRecordIsAbandonedOrEnds : Prop :=
  ∀ (s : State) (a b : Bool) (r : Record) (u : State), s.plainTick a b → s.tableLaw → s.loneAt r (s.bpu.position + 1) → u = s.moved a b →
    (∀ (route : Route) (x : Outlet), r.route = some route → x = s.outlet route.outlet → atOrBeyond (s.bpu.position + 1) (s.endPoint r) = false →
      (r.state = .routed → ∀ w, x.request = some w → r.tag ∉ x.requestMembers →
        exec (.encoderStep a b) s = .next ((((u.withRecord r.tag (s.ride .paddleBusy r)).withOutlet route.outlet
          { x.less route.units with latest := if ∃ l, x.latest = some l ∧ l.owner = r.tag then none else x.latest }).withOutletTally route.outlet
          { vget s.tau.outlets route.outlet with abandoned := min 16777215 ((vget s.tau.outlets route.outlet).abandoned + 1) }).withLatches
            (x.emptiedBy route.units)))
      ∧ (r.state = .due → r.tag ∈ x.requestMembers →
        exec (.encoderStep a b) s = .next ((((u.withRecord r.tag (s.ride .fireLate r)).withOutlet route.outlet
          { x.less route.units with
            request := none
            latest := if ∃ l, x.latest = some l ∧ l.owner = r.tag then none else x.latest }).withOutletTally route.outlet
          { vget s.tau.outlets route.outlet with abandoned := min 16777215 ((vget s.tau.outlets route.outlet).abandoned + 1) }).withLatches
            (x.emptiedBy route.units))))
    ∧ (r.state = .carried → ∃ t, exec (.encoderStep a b) s = .next t ∧ TakenOut t s [r.tag]
      ∧ t = { u with
          tc := t.tc
          service := t.service
          ilc := t.ilc
          tau := { s.tau with keys := s.tau.keys.set r.key.val { vget s.tau.keys r.key with
            ended := min 16777215 ((vget s.tau.keys r.key).ended + 1) } } })

/-- R18, R29, R30, R35, R37, R39, R62 to R66, R76, R78, R79: a forward tick that reaches the decision point of a PENDING cluster, of one record or several, decides the whole of it by one walk from its leader's class: JUMP entries are
followed, an outlet that refuses with its chain flag set passes the walk to the next index, and the checks DOUBLE_JUMP, PAST_END and WALK_LIMIT end it; every member is ROUTED with its own units and one fire
point, or CARRIED to its own end point, and takes the last refusal and AUDIT. -/
def Obligations.DecisionPointDecidesAWholeCluster : Prop :=
  ∀ (s : State) (a b : Bool) (lead : Record) (ms : List Record), s.plainTick a b → s.booksLaw → lead ∈ s.tc.records → lead.leads → lead.state = .pending →
    ms = s.membersOf lead.tag → s.reachesOnly (s.bpu.position + 1) ms → s.endsAhead (s.bpu.position + 1) ms →
    ∃ t, exec (.encoderStep a b) s = .next t ∧ (s.moved a b).decidesTo ms lead t

/-- R29, R30, R37, R38, R39, R118, R119, R122, R126: a forward tick that reaches the fire point of a ROUTED cluster takes all its members together: FIRED as one stroke set when the paddle is IDLE, no set is held and a slot is free and no request
waits anywhere; else DUE with one request and one late limit, or CARRIED with FIRE_LATE at a late tolerance of 0; and CARRIED with PADDLE_BUSY where another request waits. With requests waiting at other outlets, an IDLE paddle that holds no set makes
the new request one of a grant decision, which may grant it or others, and one left waiting at a late tolerance of 0 is CARRIED after it. One that reaches the late limit of a DUE cluster carries all its
members with FIRE_LATE and ends its request. Carrying gives back the units of all. -/
def Obligations.FirePointAndLateLimitTakeAWholeCluster : Prop :=
  ∀ (s : State) (a b : Bool) (lead : Record) (ms : List Record) (route : Route) (x : Outlet) (u asked gone : State) (late : Pos) (why : CarryReason) (abandoned : State → State),
    s.plainTick a b → s.booksLaw → lead ∈ s.tc.records → lead.leads → ms = s.membersOf lead.tag → lead.route = some route → x = s.outlet route.outlet →
    s.reachesOnly (s.bpu.position + 1) ms → s.endsAhead (s.bpu.position + 1) ms → u = s.moved a b → late = plus route.firePoint x.fields.lateTolerance →
    why = (if lead.state = .routed ∧ x.request ≠ none then .paddleBusy else .fireLate) →
    (∀ v : State, abandoned v = (((v.withEach ms (s.ride why)).withOutlet route.outlet ((v.outlet route.outlet).without lead.tag (routeUnits ms))).withOutletTally route.outlet
      { vget v.tau.outlets route.outlet with abandoned := min 16777215 ((vget v.tau.outlets route.outlet).abandoned + 1) }).withLatches
        ((v.outlet route.outlet).emptiedBy (routeUnits ms))) →
    gone = abandoned u →
    asked = (u.withEach ms (fun q => { q with state := .due, waypoint := some late })).withOutlet route.outlet
      { x with request := some (.deadline (ms.map Record.tag) late (routeUnits ms)) } →
    (lead.state = .routed → route.firePoint = s.bpu.position + 1 → x.fields.lateTolerance ≤ 255 →
      (s.quiet → x.paddle = .idle → x.strokeSet = none → s.aa.slotsInUse < s.params.airBudget →
        exec (.encoderStep a b) s = .next { ((u.withEach ms (fun q => { q with state := .fired, waypoint := none })).withOutlet route.outlet
            { x with
              paddle := .stroke
              strokeTimer := 0
              strokeFigure := x.fields.strokeTime
              strokeSet := some { members := ms.map Record.tag, units := routeUnits ms }
              confirmTimer := 0
              windowFigure := x.fields.confirmWindow
              latest := if ∃ l, x.latest = some l ∧ l.owner ∈ ms.map Record.tag then none else x.latest }).withOutletTally route.outlet
            { vget s.tau.outlets route.outlet with strokes := min 16777215 ((vget s.tau.outlets route.outlet).strokes + 1) } with
          aa := { slotsInUse := s.aa.slotsInUse + 1 } })
      ∧ (s.quiet → x.paddle ≠ .idle ∨ x.strokeSet ≠ none ∨ s.params.airBudget ≤ s.aa.slotsInUse →
        (0 < x.fields.lateTolerance → exec (.encoderStep a b) s = .next ((u.withEach ms (fun q => { q with state := .due, waypoint := some late })).withOutlet route.outlet
          { x with request := some (.deadline (ms.map Record.tag) late (routeUnits ms)) }))
        ∧ (x.fields.lateTolerance = 0 → exec (.encoderStep a b) s = .next gone))
      ∧ (x.request = none → x.paddle = .idle → x.strokeSet = none → ∃ (v : State) (g : List OutletNo), GrantDecision v asked g
        ∧ (route.outlet ∈ g ∨ 0 < x.fields.lateTolerance → exec (.encoderStep a b) s = .next v)
        ∧ (route.outlet ∉ g → x.fields.lateTolerance = 0 → exec (.encoderStep a b) s = .next (abandoned v)))
      ∧ (x.request = none → x.paddle ≠ .idle ∨ x.strokeSet ≠ none → exec (.encoderStep a b) s = .next (if 0 < x.fields.lateTolerance then asked else gone))
      ∧ (x.request ≠ none → exec (.encoderStep a b) s = .next gone))
    ∧ (lead.state = .due → exec (.encoderStep a b) s = .next gone)

/-- R30, and R29, R39, R41, R118, R119: where one forward tick reaches an end point, a late limit, a fire point and a decision point, they are taken in that order: the CARRIED record is retired END; the DUE record at outlet `o` is CARRIED with FIRE_LATE; the record ROUTED
to the same outlet therefore finds no request waiting and becomes DUE behind a paddle that is not IDLE; and the PENDING record is decided last, by the table and the outlets as the others have left them. Within one kind they are taken in belt
order: of two records ROUTED to an outlet the older becomes DUE and the younger is CARRIED with PADDLE_BUSY, and PENDING clusters are decided one after another, each walk after the decisions before it. -/
def Obligations.OneTickTakesWaypointsByKind : Prop :=
  (∀ (s u₀ u₁ u₂ : State) (a b : Bool) (e d f q : Record) (o : OutletNo) (x : Outlet) (rd rf : Route) (late : Pos), s.plainTick a b → s.booksLaw →
    (∀ r ∈ s.tc.records, r.waypoint = some (s.bpu.position + 1) ↔ r ∈ [e, d, f, q]) → (∀ r ∈ [e, d, f, q], r ∈ s.tc.records ∧ r.cluster = none) →
    (∀ r ∈ s.tc.records, r.cluster = none) → e.state = .carried → d.state = .due → f.state = .routed → q.state = .pending →
    d.route = some rd → f.route = some rf → rd.outlet = o → rf.outlet = o → rf.firePoint = s.bpu.position + 1 → x = s.outlet o →
    s.endsAhead (s.bpu.position + 1) [d, f, q] → x.paddle ≠ .idle → 0 < x.fields.lateTolerance → x.fields.lateTolerance ≤ 255 → late = plus rf.firePoint x.fields.lateTolerance →
    u₀ = { s.moved a b with
      tc := { records := s.tc.records.filter (fun r => r.tag != e.tag), gens := s.tc.gens.set e.slot.val (vget s.tc.gens e.slot + 1) }
      tau := { s.tau with keys := s.tau.keys.set e.key.val { vget s.tau.keys e.key with ended := min 16777215 ((vget s.tau.keys e.key).ended + 1) } } } →
    u₁ = (((u₀.withRecord d.tag (s.ride .fireLate d)).withOutlet o (x.without d.tag rd.units)).withOutletTally o
      { vget s.tau.outlets o with abandoned := min 16777215 ((vget s.tau.outlets o).abandoned + 1) }).withLatches (x.emptiedBy rd.units) →
    u₂ = (u₁.withRecord f.tag { f with state := .due, waypoint := some late }).withOutlet o { u₁.outlet o with request := some (.deadline [f.tag] late rf.units) } →
    ∃ t, exec (.encoderStep a b) s = .next t ∧ u₂.decidesTo [q] q t)
  ∧ (∀ (s : State) (a b : Bool) (leads : List Record), s.plainTick a b → s.booksLaw → leads = s.tc.records.filter (fun r => r.waypoint == some (s.bpu.position + 1)) →
    (∀ r ∈ leads, r.state = .pending ∧ r.leads ∧ s.endsAhead (s.bpu.position + 1) (s.membersOf r.tag)) →
    ∃ t, exec (.encoderStep a b) s = .next t ∧ DecidesEach (s.moved a b) leads t)
  ∧ ∀ (s u : State) (a b : Bool) (f g : Record) (o : OutletNo) (x : Outlet) (rf rg : Route) (late : Pos), s.plainTick a b → s.booksLaw →
    s.tc.records.filter (fun r => r.waypoint == some (s.bpu.position + 1)) = [f, g] → (∀ r ∈ [f, g], r.state = .routed ∧ r.cluster = none) →
    f.route = some rf → g.route = some rg → rf.outlet = o → rg.outlet = o → rf.firePoint = s.bpu.position + 1 → x = s.outlet o →
    s.endsAhead (s.bpu.position + 1) [f, g] → x.request = none → x.paddle ≠ .idle → 0 < x.fields.lateTolerance → x.fields.lateTolerance ≤ 255 →
    late = plus rf.firePoint x.fields.lateTolerance →
    u = ((s.moved a b).withRecord f.tag { f with state := .due, waypoint := some late }).withOutlet o { x with request := some (.deadline [f.tag] late rf.units) } →
    exec (.encoderStep a b) s = .next ((((u.withRecord g.tag (s.ride .paddleBusy g)).withOutlet o ((u.outlet o).without g.tag rg.units)).withOutletTally o
      { vget s.tau.outlets o with abandoned := min 16777215 ((vget s.tau.outlets o).abandoned + 1) }).withLatches (x.emptiedBy rg.units))

/-- R63, R81, R82, R94, R104, R106, R115, R116 (CHUTE_BLOCKED, HOME_TIMEOUT, RACK_REMOVAL, OUTLET_DISABLE): at a loss of acceptance every ROUTED and DUE cluster at the outlet is re-routed, in belt order and each walk after the re-routes before it: its units are given back, the latest fire
point that it set and its request go, every member takes REROUTED, and the cluster is walked from its leader's head, or audit head under AUDIT, without an advance of the sampler. Nothing else changes but the outlet's own condition, and at a removal the count of the rack and the
fill. (A removal with a stroke set held is in RackRemovalClearsTheStation.) -/
def Obligations.LossOfAcceptanceReroutesEveryCluster : Prop :=
  ∀ (s : State) (o : OutletNo), s.booksLaw → s.endsAhead s.bpu.position s.tc.records →
    (Event.chuteBlocked o ∈ s.due → (s.outlet o).blocked = false → ∃ t, exec (.chuteBlocked o) s = .next t
      ∧ ReroutesEach o ((({ s with due := s.due.erase (.chuteBlocked o) } : State).withOutlet o { s.outlet o with blocked := true }).withLatches 0x02) (s.clustersAt o) t)
    ∧ (Event.homeTimeout o ∈ s.due → (s.outlet o).paddle = .recover → (s.outlet o).homeFigure ≤ (s.outlet o).recoverTimer → (s.outlet o).homeFilter.accepted ≠ some true →
      ∃ t, exec (.homeTimeout o) s = .next t
        ∧ ReroutesEach o ((({ s with due := s.due.erase (.homeTimeout o) } : State).withOutlet o { s.outlet o with paddle := .faulted }).withLatches 0x02) (s.clustersAt o) t)
    ∧ ((s.outlet o).rackFilter.accepted = some true → (s.outlet o).strokeSet = none → ∃ t, exec (.rackRemoval o) s = .next (t.rackGone o (s.outlet o).rackKey)
      ∧ ReroutesEach o (({ s with due := s.due.erase (.rackRemoval o) } : State).withOutlet o { s.outlet o with
          rackFilter := { accepted := some false, run := (s.outlet o).rackFilter.run, count := 0 }, rack := .absent, rackKey := none }) (s.clustersAt o) t)
    ∧ ∀ b : Byte, b.toNat = o.val → s.sp.resetHold = false → (s.outlet o).enabled = true →
      ∃ t : State, exec (.outletDisable b) s = .next (t.answered (.outletDisable b) { status := .ok, data := [] })
        ∧ ReroutesEach o (s.withOutlet o { s.outlet o with enabled := false }) (s.clustersAt o) t

/-! ### The intake link -/

/-- R138, R145, R146 (BAD_FRAME): a frame found bad, or a byte error within a frame, is counted and the assembler hunts; the fourth bad frame in a row loses an ACTIVE link, which goes OFFLINE
with L = E and raises LINK. A byte error in HUNT ends nothing, and nothing else changes in any case but that the receive line is idle after the whole byte. -/
def Obligations.BadFrameIsCountedAndTheFourthLosesTheLink : Prop :=
  ∀ (cause : BadCause) (s : State) (n : Nat) (d : DeviceTally), n = min 4 (s.ilc.badRun + 1) →
    d = { s.tau.device with badFrames := min 16777215 (s.tau.device.badFrames + 1) } →
    (cause = .byteError → s.ilc.assembler = .hunt → exec (.badFrame cause) s = .next { s with ilc := { s.ilc with rx := .idle } })
    ∧ (cause ≠ .byteError ∨ s.ilc.assembler ≠ .hunt →
      (s.ilc.link ≠ .active ∨ s.ilc.badRun < 3 →
        exec (.badFrame cause) s = .next { s with ilc := { s.ilc with rx := .idle, assembler := .hunt, badRun := n }, tau := { s.tau with device := d } })
      ∧ (s.ilc.link = .active → 3 ≤ s.ilc.badRun → exec (.badFrame cause) s = .next { s with
          ilc := { s.ilc with
            link := .offline
            rx := .idle
            assembler := .hunt
            badRun := 4
            l := s.ilc.e
            beaconTimer := 0
            tx := match s.ilc.tx with
              | .idle => .idle
              | .sending now _ => .sending now none }
          tau := { s.tau with device := d, latches := s.tau.latches ||| 0x08 } }))

/-- R137, R139, R140, R141, R142, R143, R147, R148 (JOIN, KEEPALIVE, NOTICE, REVISE): a JOIN of level 1 takes the link to SYNCING in every link state, with E, L, the silence and the sync counts at 0, and a beacon with the position and
credit limit 0 goes to the transmitter; nothing else changes. A JOIN of another level is a bad frame. Out of ACTIVE a valid frame sets the two counts to 0 and no more in OFFLINE; in SYNCING a notice or revision is refused and each is a sync frame,
the second of which makes the link ACTIVE. In ACTIVE a KEEPALIVE does no more than set the counts. -/
def Obligations.ValidFramesFollowTheLinkState : Prop :=
  (∀ (level : Byte) (s : State),
    (level = 1 → exec (.join level) s = .next { s with ilc := {
      link := .syncing
      rx := .idle
      assembler := .hunt
      badRun := 0
      silence := 0
      syncTimer := 0
      syncFrames := 0
      beaconTimer := 0
      tx := match s.ilc.tx with
        | .idle => .sending (beaconFrame s.bpu.position 0) none
        | .sending now _ => .sending now (some (beaconFrame s.bpu.position 0))
      e := 0
      l := 0 } })
    ∧ (level ≠ 1 → exec (.join level) s = exec (.badFrame .atCrc) s))
  ∧ ∀ (s : State) (n : Byte) (stamp : Pos) (len : BitVec 16) (c : ClassNo) (k : KeyNo) (sc sk : Bool) (i : Ilc),
    i = { s.ilc with rx := .idle, assembler := .hunt, silence := 0, badRun := 0 } →
    (s.ilc.link ≠ .syncing → exec .keepalive s = .next { s with ilc := i })
    ∧ (s.ilc.link = .offline → ∀ f ∈ [Instr.notice n stamp len c k, Instr.revise n sc sk c k], exec f s = .next { s with ilc := i })
    ∧ (s.ilc.link = .syncing → ∀ j : Ilc, j = { i with
          syncFrames := s.ilc.syncFrames + 1, link := if 1 ≤ s.ilc.syncFrames then .active else .syncing } →
      exec .keepalive s = .next { s with ilc := j }
      ∧ ∀ f ∈ [Instr.notice n stamp len c k, Instr.revise n sc sk c k], exec f s = .next { s with
          ilc := j, tau := { s.tau with device := { s.tau.device with refused := min 16777215 (s.tau.device.refused + 1) } } })

/-- R150 to R155 (NOTICE in ACTIVE): the checks in their order: out of order and overrun drop the notice with E unchanged; past them E becomes n + 1 and a gap is counted; outside SERVING the notice
is refused, and one older than NOTICE_AGE is stale; INTAKE is raised by an overrun, a gap and a stale notice. Nothing else changes. A notice in FAILSAFE with L = E (R149) is an overrun here, by the order of R150 and by R152 and R169,
where R154 has a notice after an entry to FAILSAFE refused: that the order of the checks prevails is the model's choice (log 30). -/
def Obligations.NoticeChecksDropInOrder : Prop :=
  ∀ (s : State) (n : Byte) (stamp : Pos) (len : BitVec 16) (c : ClassNo) (k : KeyNo) (i : Ilc) (gap : Nat) (d : DeviceTally) (gapLatch : BitVec 8),
    s.ilc.link = .active → i = { s.ilc with rx := .idle, assembler := .hunt, silence := 0, badRun := 0 } → gap = (n - s.ilc.e).toNat →
    d = (if gap = 0 then s.tau.device else { s.tau.device with gapTotal := min 16777215 (s.tau.device.gapTotal + gap) }) →
    gapLatch = (if gap = 0 then 0 else 0x10) →
    (128 ≤ gap → exec (.notice n stamp len c k) s = .next { s with
      ilc := i, tau := { s.tau with device := { s.tau.device with outOfOrder := min 16777215 (s.tau.device.outOfOrder + 1) } } })
    ∧ (gap < 128 → (s.ilc.l - n).toNat < 1 ∨ 128 < (s.ilc.l - n).toNat → exec (.notice n stamp len c k) s = .next { s with
        ilc := i
        tau := { s.tau with
          latches := s.tau.latches ||| 0x10
          device := { s.tau.device with overruns := min 16777215 (s.tau.device.overruns + 1) } } })
    ∧ (gap < 128 → 1 ≤ (s.ilc.l - n).toNat → (s.ilc.l - n).toNat ≤ 128 →
      (s.service ≠ .serving → exec (.notice n stamp len c k) s = .next { s with
        ilc := { i with e := n + 1 }
        tau := { s.tau with latches := s.tau.latches ||| gapLatch, device := { d with refused := min 16777215 (d.refused + 1) } } })
      ∧ (s.service = .serving → (s.bpu.position - stamp).toNat ≤ 8388608 → s.params.noticeAge < (s.bpu.position - stamp).toNat →
        exec (.notice n stamp len c k) s = .next { s with
          ilc := { i with e := n + 1 }
          tau := { s.tau with latches := s.tau.latches ||| 0x10, device := { d with stale := min 16777215 (d.stale + 1) } } }))

/-- R19, R23, R25, R27, R31, R32, R34, R62, R153, R155, R156 (NOTICE in ACTIVE and SERVING): a notice that passes the checks and overlaps no live record makes a record in the lowest FREE slot, PENDING and alone, in the belt-order list after the stamps
at or before its own; a stamp beyond the position is clamped and marked. With its decision point ahead nothing else changes; at or behind the position, the record is decided within its own creation. -/
def Obligations.NoticeCreatesALoneRecord : Prop :=
  ∀ (s u : State) (n : Byte) (stamp st : Pos) (len : BitVec 16) (c : ClassNo) (k : KeyNo) (ln : Nat) (clamped : Bool) (slot : Slot) (before after : List Record) (new : Record),
    s.PassesChecks n stamp len clamped st ln slot → s.tc.records = before ++ after → placedAt st before after →
    (∀ q ∈ s.tc.records, q.apartFrom s.params.clearance st ln) →
    new = { freshRecord slot (vget s.tc.gens slot) n st ln c k clamped with waypoint := some (plus st s.params.q) } →
    u = { s.numbered n with tc := { s.tc with records := before ++ new :: after } } →
    (atOrBeyond s.bpu.position (plus st s.params.q) = false → exec (.notice n stamp len c k) s = .next u)
    ∧ (atOrBeyond s.bpu.position (plus st s.params.q) = true → (∀ q ∈ s.tc.records, q.leaderTag ≠ new.tag) → atOrBeyond s.bpu.position (s.endPoint new) = false →
      ∃ t, exec (.notice n stamp len c k) s = .next t ∧ u.decidesTo [new] new t)

/-- R33 to R36, R39 (NOTICE in ACTIVE and SERVING): a notice that overlaps one lone record and no other: with a PENDING one it forms a PENDING cluster of 2 led by the first in belt order, which holds the decision point; beside
a FIRED or CARRIED one it is created CARRIED with OVERLAP_LATE; a ROUTED or DUE one is CARRIED with it, its units given back and its request cancelled. -/
def Obligations.OverlappingNoticeJoinsOrCarries : Prop :=
  ∀ (s : State) (n : Byte) (stamp st : Pos) (len : BitVec 16) (c : ClassNo) (k : KeyNo) (ln : Nat) (clamped : Bool) (slot : Slot) (before after : List Record)
    (x new : Record) (u : State),
    s.PassesChecks n stamp len clamped st ln slot → s.tc.records = before ++ after → placedAt st before after → s.tableLaw →
    x ∈ s.tc.records → x.cluster = none → ¬x.apartFrom s.params.clearance st ln →
    (∀ q ∈ s.tc.records, q.tag ≠ x.tag → q.apartFrom s.params.clearance st ln ∧ q.leaderTag ≠ x.tag) →
    new = freshRecord slot (vget s.tc.gens slot) n st ln c k clamped → (∀ q ∈ s.tc.records, q.leaderTag ≠ new.tag) → u = s.numbered n →
    (x.state = .pending → x ∈ before → atOrBeyond s.bpu.position (plus x.stamp s.params.q) = false →
      exec (.notice n stamp len c k) s = .next (({ u with tc := { s.tc with
        records := before ++ { new with cluster := some (.member x.tag) } :: after } } : State).withRecord x.tag
          { x with cluster := some (.leader 2), waypoint := some (plus x.stamp s.params.q) }))
    ∧ (x.state = .pending → x ∈ after → atOrBeyond s.bpu.position (plus st s.params.q) = false →
      exec (.notice n stamp len c k) s = .next (({ u with tc := { s.tc with
        records := before ++ { new with cluster := some (.leader 2), waypoint := some (plus st s.params.q) } :: after } } : State).withRecord x.tag
          { x with cluster := some (.member new.tag), waypoint := none }))
    ∧ (x.state = .fired ∨ x.state = .carried → atOrBeyond s.bpu.position (s.endPoint new) = false →
      exec (.notice n stamp len c k) s = .next { u with tc := { s.tc with
        records := before ++ s.ride .overlapLate new :: after } })
    ∧ (∀ route, x.state = .routed ∨ x.state = .due → x.route = some route →
      atOrBeyond s.bpu.position (s.endPoint new) = false → atOrBeyond s.bpu.position (s.endPoint x) = false →
      exec (.notice n stamp len c k) s = .next (((({ u with tc := { s.tc with
        records := before ++ s.ride .overlapLate new :: after } } : State).withRecord x.tag (s.ride .overlapLate x)).withOutlet route.outlet
          { (s.outlet route.outlet).less route.units with
            request := if x.tag ∈ (s.outlet route.outlet).requestMembers then none else (s.outlet route.outlet).request
            latest := if ∃ l, (s.outlet route.outlet).latest = some l ∧ l.owner = x.tag then none else (s.outlet route.outlet).latest }).withLatches
              ((s.outlet route.outlet).emptiedBy route.units)))

/-- R33 to R36, R39, R77, R98, R121, R19 (NOTICE in ACTIVE and SERVING): where every record that a notice overlaps, and every member of their clusters, is PENDING, up to 7 of them become one cluster with the new record, led by the first in belt order, which
alone holds a decision point and is decided at once when it lies at or behind the position; 8 or more are CARRIED with the new record, with CLUSTER_LIMIT. Where one of them is decided, all that are PENDING, ROUTED or DUE are CARRIED with the new
record, with OVERLAP_LATE, their units given back and their requests cancelled, and the FIRED and CARRIED stay as they are. -/
def Obligations.NoticeLinksOrCarriesTheMergedSet : Prop :=
  ∀ (s u : State) (n : Byte) (stamp st : Pos) (len : BitVec 16) (c : ClassNo) (k : KeyNo) (ln : Nat) (clamped : Bool) (slot : Slot) (before after m list : List Record) (new : Record),
    s.PassesChecks n stamp len clamped st ln slot → s.tc.records = before ++ after → placedAt st before after → s.booksLaw →
    new = freshRecord slot (vget s.tc.gens slot) n st ln c k clamped → list = before ++ new :: after → m.Sublist s.tc.records →
    (∀ q ∈ s.tc.records, q ∈ m ↔ ∃ h ∈ s.tc.records, ¬h.apartFrom s.params.clearance st ln ∧ h.leaderTag = q.leaderTag) → m ≠ [] →
    ((∃ q ∈ m, q.state ≠ .pending) → s.endsAhead s.bpu.position (new :: m) → ∃ t, exec (.notice n stamp len c k) s = .next t
      ∧ (∀ o, t.outlet o = (s.outlet o).afterOverlap o m)
      ∧ t.tau.latches = (s.numbered n).tau.latches
          ||| (if ∃ o, (∃ q ∈ m, q.leavesAt o) ∧ (s.outlet o).rack = .closing ∧ (t.outlet o).committed = 0 then 0x01 else 0)
      ∧ t = { s.numbered n with
          tc := { s.tc with records := list.map (fun q =>
            if q.tag = new.tag ∨ q.tag ∈ m.map Record.tag ∧ q.state ≠ .fired ∧ q.state ≠ .carried then s.ride .overlapLate q else q) }
          outlets := t.outlets
          tau := { (s.numbered n).tau with latches := t.tau.latches } })
    ∧ ((∀ q ∈ m, q.state = .pending) → 8 ≤ m.length → s.endsAhead s.bpu.position (new :: m) → exec (.notice n stamp len c k) s = .next { s.numbered n with tc := { s.tc with
      records := list.map (fun q => if q.tag ∈ (new :: m).map Record.tag then s.ride .clusterLimit q else q) } })
    ∧ ((∀ q ∈ m, q.state = .pending) → m.length ≤ 7 → ∀ (pre post : List Record) (lead lead' : Record), list = pre ++ lead :: post → lead ∈ new :: m → (∀ q ∈ pre, q ∉ new :: m) →
      lead' = { lead with cluster := some (.leader (m.length + 1)), waypoint := some (plus lead.stamp s.params.q) } →
      u = { s.numbered n with tc := { s.tc with records := list.map (fun q =>
        if q.tag = lead.tag then lead'
        else if q.tag ∈ (new :: m).map Record.tag then { q with cluster := some (.member lead.tag), waypoint := none } else q) } } →
      (atOrBeyond s.bpu.position (plus lead.stamp s.params.q) = false → exec (.notice n stamp len c k) s = .next u)
      ∧ (atOrBeyond s.bpu.position (plus lead.stamp s.params.q) = true → s.endsAhead s.bpu.position (new :: m) →
        ∃ t, exec (.notice n stamp len c k) s = .next t ∧ u.decidesTo (u.membersOf lead.tag) lead' t))

/-- R43 to R46, R83, R157 (REVISE in ACTIVE): a revision that selects nothing or finds no record of its number is counted unmatched; otherwise the newest record of the number is amended when it is PENDING or CARRIED, or
ROUTED and far enough from its fire point, and is left as it was when not. The cluster of a ROUTED one is walked again: its units, latest fire point and routes given back, from its leader's head or audit head, without an advance of the sampler and
without REROUTED. -/
def Obligations.ReviseAmendsTheNewestRecordOfItsNumber : Prop :=
  ∀ (s u : State) (n : Byte) (sc sk : Bool) (c : ClassNo) (k : KeyNo), s.ilc.link = .active →
    u = { s with ilc := { s.ilc with rx := .idle, assembler := .hunt, silence := 0, badRun := 0 } } →
    (sc = false ∧ sk = false ∨ (∀ q ∈ s.tc.records, q.number ≠ n) →
      exec (.revise n sc sk c k) s = .next { u with tau := { s.tau with device := { s.tau.device with unmatched := min 16777215 (s.tau.device.unmatched + 1) } } })
    ∧ ∀ (r q : Record) (before after : List Record), sc = true ∨ sk = true → s.tc.records = before ++ r :: after → r.number = n →
      (∀ q ∈ after, q.number ≠ n) → s.tableLaw →
      q = { r with cls := if sc then c else r.cls, key := if sk then k else r.key, flags := { r.flags with amended := true } } →
      (r.state = .pending ∨ r.state = .carried → exec (.revise n sc sk c k) s = .next (u.withRecord r.tag q))
      ∧ (r.state = .due ∨ r.state = .fired → exec (.revise n sc sk c k) s = .next u)
      ∧ ∀ route, r.state = .routed → r.route = some route →
        ((route.firePoint - s.bpu.position).toNat < s.params.armMargin ∨ 8388608 ≤ (route.firePoint - s.bpu.position).toNat →
          exec (.revise n sc sk c k) s = .next u)
        ∧ (s.params.armMargin ≤ (route.firePoint - s.bpu.position).toNat → (route.firePoint - s.bpu.position).toNat < 8388608 → r.cluster = none →
          ∃ t, exec (.revise n sc sk c k) s = .next t ∧ KeptByWork t u ∧ t.bpu = s.bpu ∧ t.aa = s.aa
            ∧ ∀ q' ∈ t.tc.records, q'.tag = r.tag → q'.cls = q.cls ∧ q'.key = q.key ∧ q'.flags.amended = true ∧ (q'.state = .routed ∨ q'.state = .carried))
        ∧ (s.params.armMargin ≤ (route.firePoint - s.bpu.position).toNat → (route.firePoint - s.bpu.position).toNat < 8388608 → s.booksLaw →
          s.endsAhead s.bpu.position (s.membersOf r.leaderTag) → ∃ t, exec (.revise n sc sk c k) s = .next t ∧ u.amendsTo route.outlet r q t)

/-- R142, R144, R146 (SYNC_TIMEOUT, LINK_SILENCE_TIMEOUT): each timeout that the last tick has brought about, and no valid frame or JOIN has stopped since, takes the link OFFLINE with L = E, and the silence of an ACTIVE link raises LINK; nothing else changes, so that a byte in progress on the receive line stays in
progress (the model's choice, log 7). A timeout that has not come about changes nothing (the model's choice, log 3). -/
def Obligations.LinkTimeoutsGoOffline : Prop :=
  ∀ (s : State) (i : Ilc), i = { s.ilc with
      link := .offline
      assembler := .hunt
      l := s.ilc.e
      beaconTimer := 0
      tx := match s.ilc.tx with
        | .idle => .idle
        | .sending now _ => .sending now none } →
    (Event.syncTimeout ∈ s.due ∧ s.ilc.link = .syncing ∧ 0 < s.ilc.syncTimer ∧ s.ilc.syncFrames < 2 →
      exec .syncTimeout s = .next { s with due := s.due.erase .syncTimeout, ilc := i })
    ∧ (¬(Event.syncTimeout ∈ s.due ∧ s.ilc.link = .syncing ∧ 0 < s.ilc.syncTimer ∧ s.ilc.syncFrames < 2) →
      exec .syncTimeout s = .next s)
    ∧ (Event.linkSilence ∈ s.due ∧ s.ilc.link = .active ∧ 0 < s.ilc.silence →
      exec .linkSilenceTimeout s = .next (({ s with due := s.due.erase .linkSilence, ilc := i } : State).withLatches 0x08))
    ∧ (¬(Event.linkSilence ∈ s.due ∧ s.ilc.link = .active ∧ 0 < s.ilc.silence) → exec .linkSilenceTimeout s = .next s)

/-- R134, R147, R148 (BEACON, BEACON_TRANSMIT_DONE): a beacon that comes about carries the position and L, computed afresh from the free records in SERVING with the link ACTIVE and else E, and raises PRESSURE at an allowance of 0; it is sent at
once by an idle transmitter and else waits. The end of a beacon sends the one that waits. LINK_TX carries the bytes back to back, each a start bit, its eight bits with the least significant first and a stop bit, and rests at the stop level. A beacon that no
tick has brought about changes nothing (the model's choice, log 3), and neither does an end of sending with an idle transmitter (the model's choice, log 23). -/
def Obligations.BeaconsCarryPositionAndCredit : Prop :=
  ∀ (s : State) (allowance : Nat) (l : Byte), allowance = min (256 - s.tc.records.length - s.params.creditMargin) 127 →
    l = (if s.service = .serving ∧ s.ilc.link = .active then s.ilc.e + BitVec.ofNat 8 allowance else s.ilc.e) →
    (Event.beacon ∈ s.due ∧ s.ilc.link ≠ .offline ∧ 0 < s.ilc.beaconTimer →
      exec .beacon s = .next (({ s with
        due := s.due.erase .beacon
        ilc := { s.ilc with
          l := l
          beaconTimer := 0
          tx := match s.ilc.tx with
            | .idle => .sending (beaconFrame s.bpu.position l) none
            | .sending now _ => .sending now (some (beaconFrame s.bpu.position l)) } } : State).withLatches
        (if s.service = .serving ∧ s.ilc.link = .active ∧ allowance = 0 then 0x20 else 0)))
    ∧ (¬(Event.beacon ∈ s.due ∧ s.ilc.link ≠ .offline ∧ 0 < s.ilc.beaconTimer) → exec .beacon s = .next s)
    ∧ exec .beaconTransmitDone s = .next { s with ilc := { s.ilc with tx := match s.ilc.tx with
        | .sending _ (some next) => .sending next none
        | _ => .idle } }
    ∧ beaconFrame s.bpu.position l = [0xA5, 0x81, 0x04, BitVec.ofNat 8 (s.bpu.position.toNat / 65536), BitVec.ofNat 8 (s.bpu.position.toNat / 256),
        BitVec.ofNat 8 s.bpu.position.toNat, l, crc8 [0x81, 0x04, BitVec.ofNat 8 (s.bpu.position.toNat / 65536),
          BitVec.ofNat 8 (s.bpu.position.toNat / 256), BitVec.ofNat 8 s.bpu.position.toNat, l]]
    ∧ (s.ilc.tx = .idle → ∀ i, s.linkTx i = true)
    ∧ ∀ (now : List Byte) (waiting : Option (List Byte)) (k j : Nat) (b : Byte), s.ilc.tx = .sending now waiting → (now ++ waiting.getD [])[k]? = some b →
      (∀ i, 10 * (now ++ waiting.getD []).length ≤ i → s.linkTx i = true)
      ∧ s.linkTx (10 * k) = false ∧ (j < 8 → s.linkTx (10 * k + 1 + j) = b.getLsbD j) ∧ s.linkTx (10 * k + 9) = true

/-- R134, R137, R138 (RECEIVED_BYTE): bit by bit, the start level begins a byte on an idle line, eight data bits gather, the least significant first, and a stop bit at the stop level makes the byte received, one at the start level a byte error; then
the line is idle. The assembler's table: 0xA5 starts a frame in HUNT and any other byte is discarded; a type byte is kept; a length byte that is not its kind's ends the frame bad; payload bytes gather; a wrong CRC byte ends the
frame bad. Nothing but the line and the assembler changes short of a whole frame. Levels after the bit that completes a byte are not read by the command (the model's choice, log 7). -/
def Obligations.ReceivedBytesAssembleAFrame : Prop :=
  (∀ (s : State) (level : Bool) (rest bits : List Bool) (b : Byte),
    exec (.receivedByte []) s = .next s
    ∧ (s.ilc.rx = .idle → exec (.receivedByte (true :: rest)) s = exec (.receivedByte rest) s
      ∧ exec (.receivedByte (false :: rest)) s = exec (.receivedByte rest) { s with ilc := { s.ilc with rx := .byte [] } })
    ∧ (s.ilc.rx = .byte bits → bits.length < 8 →
      exec (.receivedByte (level :: rest)) s = exec (.receivedByte rest) { s with ilc := { s.ilc with rx := .byte (bits ++ [level]) } })
    ∧ (s.ilc.rx = .byte bits → 8 ≤ bits.length → exec (.receivedByte (false :: rest)) s = exec (.badFrame .byteError) s)
    ∧ (s.ilc.rx = .byte ([0, 1, 2, 3, 4, 5, 6, 7].map b.getLsbD) →
      exec (.receivedByte (true :: rest)) s = exec (.receivedByte (byteLevels b)) { s with ilc := { s.ilc with rx := .idle } })
    ∧ byteLevels b = [false, b.getLsbD 0, b.getLsbD 1, b.getLsbD 2, b.getLsbD 3, b.getLsbD 4, b.getLsbD 5, b.getLsbD 6, b.getLsbD 7, true])
  ∧ ∀ (s : State) (b ty : Byte) (left : Nat) (got : List Byte) (at' : Assembler → State), s.ilc.rx = .idle → (∀ a, at' a = { s with ilc := { s.ilc with assembler := a } }) →
    (s.ilc.assembler = .hunt → exec (.receivedByte (byteLevels b)) s = .next (if b = 0xA5 then at' .type else s))
    ∧ (s.ilc.assembler = .type → exec (.receivedByte (byteLevels b)) s = .next (at' (.length b)))
    ∧ (s.ilc.assembler = .length ty →
      ((ty, b) ∈ [(0x01, 1), (0x03, 8), (0x04, 4)] → exec (.receivedByte (byteLevels b)) s = .next (at' (.payload ty b.toNat [])))
      ∧ (ty = 0x02 → b = 0 → exec (.receivedByte (byteLevels b)) s = .next (at' (.check ty [])))
      ∧ ((ty, b) ∉ [(0x01, 1), (0x02, 0), (0x03, 8), (0x04, 4)] → exec (.receivedByte (byteLevels b)) s = exec (.badFrame .atLength) s))
    ∧ (s.ilc.assembler = .payload ty left got →
      exec (.receivedByte (byteLevels b)) s = .next (at' (if left ≤ 1 then .check ty (got ++ [b]) else .payload ty (left - 1) (got ++ [b]))))
    ∧ (s.ilc.assembler = .check ty got → b ≠ crc8 (ty :: BitVec.ofNat 8 got.length :: got) → exec (.receivedByte (byteLevels b)) s = exec (.badFrame .atCrc) s)

/-- R135, R136, R137, R139: the bytes of a whole JOIN, KEEPALIVE, NOTICE or REVISE frame, received one after another from HUNT, do what the frame's command does, with every field at every value. -/
def Obligations.FrameBytesDoWhatTheFrameDoes : Prop :=
  ∀ (c : Instr) (ty : Byte) (s : State), intakeType c = some ty → s.ilc.rx = .idle → s.ilc.assembler = .hunt → receiveAll (linkFrame ty (intakePayload c)) s = exec c s

/-- R136: the CRC-8 is the bit-serial computation, most significant bit first, and running it on over the CRC byte ends with 0; the two bytes 0x01, 0x00 give 0x15. -/
def Obligations.CrcIsBitSerialWithResidueZero : Prop :=
  (∀ bytes : List Byte, crc8 bytes = (bytes.flatMap bitsOf).foldl crcBit 0) ∧ (∀ bytes : List Byte, crc8 (bytes ++ [crc8 bytes]) = 0)
    ∧ crc8 [0x01, 0x00] = 0x15

/-! ### The supervisor port -/

/-- R175, R176, R179, R180 (READ_RESPONSE, RESET_HOLD_CLEARED): a read clocks out the response from its first byte, all ones beyond it or from an empty buffer, and releases READY; the response stays. While the reset hold is set no read and
no request is taken; that such a command leaves the hold set, although its own transaction ends with SP_CS_N rising, is the model's choice (log 32). The end of the hold changes nothing else. -/
def Obligations.ReadsClockOutTheResponse : Prop :=
  ∀ s : State,
    (s.sp.resetHold = false → ∀ n : Nat, ∃ t, exec (.readResponse n) s = .next t ∧ t = { s with sp := { s.sp with ready := false, miso := t.sp.miso } }
      ∧ t.misoByte 0 = 0xFF
      ∧ (s.sp.response = none → ∀ i, t.misoByte i = 0xFF)
      ∧ (∀ (r : Response) (bytes : List Byte), s.sp.response = some r →
          bytes = r.status.code :: BitVec.ofNat 8 r.data.length :: r.data ++ [crc8 (r.status.code :: BitVec.ofNat 8 r.data.length :: r.data)] →
          ∀ i, t.misoByte (i + 1) = if i < n then bytes.getD i 0xFF else 0xFF))
    ∧ (s.sp.resetHold = true → (∀ n, exec (.readResponse n) s = .next s) ∧ (∀ c, requestCode c ≠ none → exec c s = .next s)
      ∧ ∀ bytes extra, exec (.badPortFrame bytes extra) s = .next s)
    ∧ exec .resetHoldCleared s = .next { s with sp := { s.sp with resetHold := false } }

/-- R175, R176, R177, R178 (BAD_PORT_FRAME): a request transaction whose bits are no whole number of bytes, of fewer than three bytes, with a length byte above 16 or not matching the bytes, or with a wrong CRC, is answered BAD_FRAME; an unknown code
UNKNOWN_REQUEST; a length that the request does not permit BAD_FRAME. Nothing outside the port changes. A transaction without a whole byte is empty (R175) and changes nothing, in the reset hold and outside it. -/
def Obligations.BadPortFramesAreAnsweredAlone : Prop :=
  (∀ (s : State) (extra : Nat), exec (.badPortFrame [] extra) s = .next s)
  ∧ ∀ (s : State) (bytes : List Byte) (extra : Nat) (code len crc : Byte) (args : List Byte) (answer : Status → State),
    s.sp.resetHold = false → bytes.head? ≠ some 0x5A → bytes ≠ [] →
    (∀ st, answer st = { s with sp := { s.sp with requestBuffer := bytes.take 19, response := some { status := st, data := [] }, ready := true, miso := [] } }) →
    (extra ≠ 0 ∨ bytes.length < 3 ∨ 16 < (bytes.getD 1 0).toNat ∨ bytes.length ≠ 3 + (bytes.getD 1 0).toNat
        ∨ bytes.getLast? ≠ some (crc8 bytes.dropLast) → exec (.badPortFrame bytes extra) s = .next (answer .badFrame))
    ∧ (extra = 0 → bytes = code :: len :: args ++ [crc] → len.toNat = args.length → len.toNat ≤ 16 → crc = crc8 (code :: len :: args) →
      (code.toNat ∉ [0x01, 0x02, 0x03, 0x10, 0x11, 0x12, 0x13, 0x14, 0x15, 0x16, 0x17, 0x20, 0x21, 0x22, 0x23, 0x24, 0x25, 0x30, 0x31, 0x32, 0x40, 0x41,
          0x42, 0x43, 0x44, 0x50, 0x51, 0x52] → exec (.badPortFrame bytes extra) s = .next (answer .unknownRequest))
      ∧ (code.toNat ∈ [0x01, 0x02, 0x03, 0x10, 0x11, 0x12, 0x13, 0x14, 0x15, 0x16, 0x17, 0x20, 0x21, 0x22, 0x23, 0x24, 0x25, 0x30, 0x31, 0x32, 0x40, 0x41,
          0x42, 0x43, 0x44, 0x50, 0x51, 0x52] →
        (code.toNat, args.length) ∉ [(0x01, 0), (0x02, 4), (0x03, 1), (0x10, 5), (0x10, 10), (0x11, 1), (0x12, 1), (0x13, 1), (0x14, 1), (0x15, 1), (0x16, 1),
          (0x17, 1), (0x20, 7), (0x21, 5), (0x22, 3), (0x23, 0), (0x24, 0), (0x25, 0), (0x30, 0), (0x31, 0), (0x32, 0), (0x40, 2), (0x41, 0), (0x41, 2),
          (0x42, 3), (0x43, 5), (0x44, 2), (0x50, 3), (0x51, 2), (0x52, 1)] → exec (.badPortFrame bytes extra) s = .next (answer .badFrame)))

/-- R176, R177, R205 and the request layouts of spec/11: the frame of every request, with every argument at every value, is judged to be that request and no other, and its bytes do what the request does. That BAD_PORT_FRAME carries out bytes that are no bad frame is the model's choice (log 8). -/
def Obligations.RequestFramesRoundTrip : Prop :=
  ∀ c : Instr, requestCode c ≠ none → judgePortFrame (portFrame c) 0 = .request c ∧ ∀ s : State, exec (.badPortFrame (portFrame c) 0) s = exec c s

/-- R91, R183, R184 (QUERY_STATUS, GET_PARAM, GET_OUTLET): each answers with its block as the layout of spec/11 gives it, and changes nothing but the port; a number that names nothing is refused RANGE. -/
def Obligations.QueriesAnswerFromTheState : Prop :=
  ∀ (s : State) (b : Byte) (values : List Nat) (status block : List Byte), s.sp.resetHold = false →
    values = [s.params.msDiv, s.params.encFilter, if s.params.encInvert then 1 else 0, s.params.window, s.params.reverseAllow, s.params.stallTime,
      s.params.clearance, s.params.q, s.params.dEnd, s.params.armMargin, s.params.auditRate, s.rd.sampler.toNat, s.params.rackDebounce, s.params.eyeFilter,
      s.params.chuteBlockTime, s.params.chuteClearTime, s.params.airBudget, s.params.missLimit, s.params.syncTimeout, s.params.linkSilence,
      s.params.beaconPeriod, s.params.creditMargin, s.params.noticeAge] →
    status = be 1 (match s.service with | .standby => 0 | .serving => 1 | .draining => 2 | .failsafe => 3)
        ++ be 1 (match s.ilc.link with | .offline => 0 | .syncing => 1 | .active => 2) ++ be 1 (if 0 < s.bpu.v then 1 else 0) ++ be 3 s.bpu.position.toNat
        ++ be 2 s.bpu.v ++ be 3 s.bpu.hwm.toNat ++ be 2 (256 - s.tc.records.length) ++ be 1 (s.ilc.l - s.ilc.e).toNat ++ [s.tau.latches] →
    exec .queryStatus s = .next (s.answered .queryStatus { status := .ok, data := status })
    ∧ (∀ v, values[b.toNat]? = some v → exec (.getParam b) s = .next (s.answered (.getParam b) { status := .ok, data := be 3 v }))
    ∧ (23 ≤ b.toNat → exec (.getParam b) s = .next (s.answered (.getParam b) { status := .range, data := [] }))
    ∧ (16 ≤ b.toNat → exec (.getOutlet b) s = .next (s.answered (.getOutlet b) { status := .range, data := [] }))
    ∧ ∀ (o : OutletNo) (x : Outlet), b.toNat = o.val → x = s.outlet o →
      block = be 3 x.fields.position ++ be 1 x.fields.latency ++ [BitVec.ofInt 8 x.fields.trim] ++ be 1 x.fields.strokeTime ++ be 1 x.fields.recoverTime
          ++ be 2 x.fields.homeTimeout ++ be 2 x.fields.confirmWindow ++ be 2 x.fields.maxSpan ++ be 1 x.fields.lateTolerance ++ be 2 x.fields.capacity
          ++ be 2 x.fields.warnLevel ++ be 8 x.fields.acceptMask.toNat ++ be 1 x.fields.level
          ++ be 1 ((if x.enabled then 1 else 0) + (if x.fields.holdOnBlock then 2 else 0))
          ++ be 1 (match x.rack with | .absent => 0 | .opened => 1 | .full => 2 | .closing => 3 | .swapReady => 4)
          ++ be 1 (match x.rackKey with | some k => k.val | none => 0xFF) ++ be 2 x.fill ++ be 2 x.committed
          ++ be 2 (if x.rack = .absent ∨ x.rack = .full then 0 else x.fields.capacity - x.fill - x.committed)
          ++ (match x.latest with | some l => be 1 1 ++ be 3 l.point.toNat | none => [0, 0, 0, 0])
          ++ be 1 (if x.blocked then 1 else 0) ++ be 1 (match x.paddle with | .idle => 0 | .stroke => 1 | .recover => 2 | .faulted => 3)
          ++ be 1 (if x.request = none then 0 else 1) ++ be 1 (match x.strokeSet with | some set => set.members.length | none => 0) ++ be 1 x.missRun
          ++ be 1 (match x.lamp with | .off => 0 | .slow => 1 | .steady => 2 | .fast => 3)
          ++ (match x.request with | some (.deadline _ late _) => be 3 late.toNat ++ [1] | some .test => [0, 0, 0, 2] | none => [0, 0, 0, 0]) →
      exec (.getOutlet b) s = .next (s.answered (.getOutlet b) { status := .ok, data := block })

/-- R1, R8, R11, R14, R20, R52, R80, R109, R125, R130, R159, R172, R184 (SET_PARAM): the value is clamped to its parameter's range, stored and answered, CLAMPED when the clamp changed it, with the effect that its rule gives the write and no other;
a standby-only parameter out of STANDBY is refused NOT_STANDBY, and a number above 22 RANGE. That ENC_INVERT above 1 is clamped is the model's choice (log 20). -/
def Obligations.SetParamClampsAndStores : Prop :=
  ∀ (s : State) (b : Byte) (value : BitVec 24) (lo hi v : Nat) (answer : Response), s.sp.resetHold = false →
    (23 ≤ b.toNat → exec (.setParam b value) s = .next (s.answered (.setParam b value) { status := .range, data := [] }))
    ∧ (b.toNat ∈ [0, 1, 2, 3, 7, 8] → s.service ≠ .standby →
      exec (.setParam b value) s = .next (s.answered (.setParam b value) { status := .notStandby, data := [] }))
    ∧ ([(1000, 65535), (1, 15), (0, 1), (20, 200), (0, 65535), (100, 10000), (0, 255), (0, 1048575), (0, 1048575), (8, 1023), (0, 11), (0, 4095), (20, 1000),
          (1, 20), (100, 10000), (100, 5000), (1, 8), (1, 15), (10, 1000), (5, 500), (1, 50), (0, 32), (64, 65535)][b.toNat]? = some (lo, hi) →
      b.toNat ∉ [0, 1, 2, 3, 7, 8] ∨ s.service = .standby →
      v = (if value.toNat < lo then lo else if hi < value.toNat then hi else value.toNat) →
      answer = { status := if v = value.toNat then .ok else .clamped, data := be 3 v } →
      (∀ t : State, [(0, { s with params := { s.params with msDiv := v }, time := { divider := 0 } }),
          (1, { s with
            params := { s.params with encFilter := v }
            bpu := { s.bpu with encA := { s.bpu.encA with count := 0 }, encB := { s.bpu.encB with count := 0 } } }),
          (2, { s with params := { s.params with encInvert := decide (v = 1) } }),
          (3, { s with
            params := { s.params with window := v }
            bpu := { s.bpu with v := 0, windowTimer := 0, windowCount := 0, windowIllegal := false } }),
          (5, { s with params := { s.params with stallTime := v } }), (6, { s with params := { s.params with clearance := v } }),
          (7, { s with params := { s.params with q := v } }), (8, { s with params := { s.params with dEnd := v } }),
          (9, { s with params := { s.params with armMargin := v } }), (10, { s with params := { s.params with auditRate := v } }),
          (11, { s with rd := { s.rd with sampler := BitVec.ofNat 12 v } }), (12, { s with params := { s.params with rackDebounce := v } }),
          (13, { s with params := { s.params with eyeFilter := v } }), (14, { s with params := { s.params with chuteBlockTime := v } }),
          (15, { s with params := { s.params with chuteClearTime := v } }), (17, { s with params := { s.params with missLimit := v } }),
          (18, { s with params := { s.params with syncTimeout := v } }), (19, { s with params := { s.params with linkSilence := v } }),
          (20, { s with params := { s.params with beaconPeriod := v } }), (21, { s with params := { s.params with creditMargin := v } }),
          (22, { s with params := { s.params with noticeAge := v } })].lookup b.toNat = some t →
        exec (.setParam b value) s = .next (t.answered (.setParam b value) answer))
      ∧ (b.toNat = 4 → s.bpu.reverseExcess = true ∨ (s.bpu.hwm - s.bpu.position).toNat ≤ v →
        exec (.setParam b value) s = .next (({ s with
          params := { s.params with reverseAllow := v }
          bpu := { s.bpu with reverseExcess := decide (v < (s.bpu.hwm - s.bpu.position).toNat) } } : State).answered (.setParam b value) answer))
      ∧ (b.toNat = 4 → s.bpu.reverseExcess = false → v < (s.bpu.hwm - s.bpu.position).toNat → ∃ t : State, exec (.setParam b value) s = .next (t.answered (.setParam b value) answer)
        ∧ t.service = .failsafe ∧ t.params = { s.params with reverseAllow := v } ∧ t.bpu.reverseExcess = true
        ∧ t.tau.device = { s.tau.device with trackLosses := min 16777215 (s.tau.device.trackLosses + 1) } ∧ (s.service ≠ .failsafe → t.tc.records = []))
      ∧ (b.toNat = 16 → ∃ (t : State) (g : List OutletNo), exec (.setParam b value) s = .next (t.answered (.setParam b value) answer)
        ∧ GrantDecision t { s with params := { s.params with airBudget := v } } g))

/-- R86, R88, R185, R205 (SET_OUTLET_FIELD): a value is clamped to its field's range (capacity also raised to fill + committed, and the rack judged against it), stored and answered, CLAMPED when that changed it; the mask is written whole. A mech field of an
ENABLED outlet is refused OUTLET_ENABLED; an outlet, field or form that names nothing RANGE. That hold-on-block above 1 is clamped is the model's choice (log 20). -/
def Obligations.SetOutletFieldClampsAndStores : Prop :=
  ∀ (s : State) (ob fb : Byte) (value : BitVec 24) (m : BitVec 64) (answer : Response), s.sp.resetHold = false →
    (15 < ob.toNat ∨ 13 < fb.toNat ∨ fb.toNat = 11 →
      exec (.setOutletField ob fb (.short value)) s = .next (s.answered (.setOutletField ob fb (.short value)) { status := .range, data := [] }))
    ∧ (15 < ob.toNat ∨ fb.toNat ≠ 11 →
      exec (.setOutletField ob fb (.mask m)) s = .next (s.answered (.setOutletField ob fb (.mask m)) { status := .range, data := [] }))
    ∧ ∀ (o : OutletNo) (x : Outlet) (f : OutletFields), ob.toNat = o.val → x = s.outlet o → f = x.fields →
      (fb.toNat = 11 → exec (.setOutletField ob fb (.mask m)) s =
        .next ((s.withOutlet o { x with fields := { f with acceptMask := m } }).answered (.setOutletField ob fb (.mask m)) { status := .ok, data := be 8 m.toNat }))
      ∧ (fb.toNat ≤ 7 → x.enabled = true →
        exec (.setOutletField ob fb (.short value)) s = .next (s.answered (.setOutletField ob fb (.short value)) { status := .outletEnabled, data := [] }))
      ∧ (fb.toNat = 2 → x.enabled = false → ∀ v : Int, v = (if value.toInt < -128 then -128 else if 127 < value.toInt then 127 else value.toInt) →
        exec (.setOutletField ob fb (.short value)) s = .next ((s.withOutlet o { x with fields := { f with trim := v } }).answered (.setOutletField ob fb (.short value))
          { status := if v = value.toInt then .ok else .clamped, data := be 3 (BitVec.ofInt 24 v).toNat }))
      ∧ (∀ lo hi v : Nat, [(0, 0, 1048575), (1, 0, 255), (3, 10, 255), (4, 0, 255), (5, 10, 1000), (6, 20, 2000), (7, 16, 4095), (8, 0, 255), (10, 0, 1023), (12, 0, 15),
            (13, 0, 1)].lookup fb.toNat = some (lo, hi) → x.enabled = false ∨ 7 < fb.toNat →
        v = (if value.toNat < lo then lo else if hi < value.toNat then hi else value.toNat) →
        answer = { status := if v = value.toNat then .ok else .clamped, data := be 3 v } →
        ∀ g : OutletFields, [(0, { f with position := v }), (1, { f with latency := v }), (3, { f with strokeTime := v }), (4, { f with recoverTime := v }),
            (5, { f with homeTimeout := v }), (6, { f with confirmWindow := v }), (7, { f with maxSpan := v }), (8, { f with lateTolerance := v }),
            (10, { f with warnLevel := v }), (12, { f with level := v }), (13, { f with holdOnBlock := decide (v = 1) })].lookup fb.toNat = some g →
        exec (.setOutletField ob fb (.short value)) s = .next ((s.withOutlet o { x with fields := g }).answered (.setOutletField ob fb (.short value)) answer))
      ∧ (fb.toNat = 9 → ∀ v : Nat, v = max (x.fill + x.committed) (if value.toNat < 1 then 1 else if 1023 < value.toNat then 1023 else value.toNat) →
        answer = { status := if v = value.toNat then .ok else .clamped, data := be 3 v } →
        exec (.setOutletField ob fb (.short value)) s = .next (((s.withOutlet o { x with
            fields := { f with capacity := v }
            rack := if x.rack = .opened ∧ v ≤ x.fill then .full else if x.rack = .full ∧ x.fill < v then .opened else x.rack }).withLatches
          (if x.rack = .opened ∧ v ≤ x.fill then 0x01 else 0)).answered (.setOutletField ob fb (.short value)) answer))

/-- R90, R106, R124, R186 (OUTLET_ENABLE, OUTLET_DISABLE): each is answered OK; enabling cancels a waiting test stroke; disabling an ENABLED outlet leaves no record ROUTED or DUE there, and where none was changes nothing else. A request that finds the enable as
it asks changes nothing, and an outlet above 15 is refused RANGE by every outlet action. -/
def Obligations.OutletEnableAndDisable : Prop :=
  ∀ (s : State) (b : Byte), s.sp.resetHold = false →
    (16 ≤ b.toNat → ∀ c ∈ [Instr.outletEnable b, .outletDisable b, .outletClose b, .reopen b, .clearFault b, .testStroke b],
      exec c s = .next (s.answered c { status := .range, data := [] }))
    ∧ ∀ o : OutletNo, b.toNat = o.val →
      ((s.outlet o).enabled = true → exec (.outletEnable b) s = .next (s.answered (.outletEnable b) { status := .ok, data := [] }))
      ∧ ((s.outlet o).enabled = false → exec (.outletEnable b) s = .next ((s.withOutlet o { s.outlet o with
          enabled := true
          request := if (s.outlet o).request = some .test then none else (s.outlet o).request }).answered (.outletEnable b) { status := .ok, data := [] }))
      ∧ ((s.outlet o).enabled = false → exec (.outletDisable b) s = .next (s.answered (.outletDisable b) { status := .ok, data := [] }))
      ∧ ((s.outlet o).enabled = true → ∃ t, exec (.outletDisable b) s = .next (t.answered (.outletDisable b) { status := .ok, data := [] })
        ∧ t.noneWaiting o ∧ (t.outlet o).enabled = false ∧ t.aa = s.aa
        ∧ (∀ j, (t.outlet j).paddle = (s.outlet j).paddle ∧ (t.outlet j).strokeSet = (s.outlet j).strokeSet ∧ (t.outlet j).fill = (s.outlet j).fill
          ∧ (t.outlet j).fields = (s.outlet j).fields)
        ∧ (s.noneWaiting o → t = s.withOutlet o { s.outlet o with enabled := false }))

/-- R117, R122, R124, R186 (CLEAR_FAULT, TEST_STROKE): a FAULTED paddle at home becomes IDLE with miss run 0 and a grant decision follows; one away is refused NOT_HOME; any other paddle is left. A test stroke at an ENABLED outlet is refused OUTLET_ENABLED, at a busy
one PADDLE_BUSY, and else waits as the outlet's request for the grant decision that follows. -/
def Obligations.ClearFaultAndTestStroke : Prop :=
  ∀ (s : State) (b : Byte) (o : OutletNo), s.sp.resetHold = false → b.toNat = o.val →
    ((s.outlet o).paddle ≠ .faulted → exec (.clearFault b) s = .next (s.answered (.clearFault b) { status := .ok, data := [] }))
    ∧ ((s.outlet o).paddle = .faulted → (s.outlet o).homeFilter.accepted ≠ some true →
      exec (.clearFault b) s = .next (s.answered (.clearFault b) { status := .notHome, data := [] }))
    ∧ ((s.outlet o).paddle = .faulted → (s.outlet o).homeFilter.accepted = some true →
      ∃ t g, exec (.clearFault b) s = .next (t.answered (.clearFault b) { status := .ok, data := [] })
        ∧ GrantDecision t (s.withOutlet o { s.outlet o with paddle := .idle, missRun := 0 }) g)
    ∧ ((s.outlet o).enabled = true → exec (.testStroke b) s = .next (s.answered (.testStroke b) { status := .outletEnabled, data := [] }))
    ∧ ((s.outlet o).enabled = false → (s.outlet o).paddle ≠ .idle ∨ (s.outlet o).request ≠ none ∨ (s.outlet o).strokeSet ≠ none →
      exec (.testStroke b) s = .next (s.answered (.testStroke b) { status := .paddleBusy, data := [] }))
    ∧ ((s.outlet o).enabled = false → (s.outlet o).paddle = .idle → (s.outlet o).request = none → (s.outlet o).strokeSet = none →
      ∃ t g, exec (.testStroke b) s = .next (t.answered (.testStroke b) { status := .ok, data := [] })
        ∧ GrantDecision t (s.withOutlet o { s.outlet o with request := some .test }) g)

/-- R55 to R58, R187, R205 (PUT_CLASS, PUT_ROUTE, GET_PLAN_ENTRY): the writes replace one entry of the staging bank, the weight brought into 1 to 15 (CLAMPED) and an END stored with field 0 and a clear chain flag; a read returns an entry of the bank named. What names nothing is
refused RANGE; that the field of an END above 0x0100 is refused so too is the model's choice (log 19), since R57 stores an END "whatever the request gives". -/
def Obligations.PlanWritesReplaceStagingEntries : Prop :=
  ∀ (s : State) (cb w a i kind ch bank : Byte) (h ah fld : BitVec 16) (staging : Bank) (store : Bank → State), s.sp.resetHold = false →
    staging = (if s.rd.active then s.rd.bank0 else s.rd.bank1) →
    (∀ b, store b = { s with rd := if s.rd.active then { s.rd with bank0 := b } else { s.rd with bank1 := b } }) →
    (63 < cb.toNat ∨ 256 < h.toNat ∨ 256 < ah.toNat →
      exec (.putClass cb w h a ah) s = .next (s.answered (.putClass cb w h a ah) { status := .range, data := [] }))
    ∧ (∀ (c : ClassNo) (head auditHead : Option RouteIx) (v : Nat), cb.toNat = c.val → h.toNat = (match head with | some x => x.val | none => 256) →
      ah.toNat = (match auditHead with | some x => x.val | none => 256) → v = (if w.toNat < 1 then 1 else if 15 < w.toNat then 15 else w.toNat) →
      exec (.putClass cb w h a ah) s = .next ((store { staging with
          classes := staging.classes.set c.val { weight := v, head := head, auditEnable := a.getLsbD 0, auditHead := auditHead } }).answered (.putClass cb w h a ah)
        { status := if v = w.toNat then .ok else .clamped, data := cb :: be 1 v ++ be 2 h.toNat ++ be 1 (if a.getLsbD 0 then 1 else 0) ++ be 2 ah.toNat }))
    ∧ (2 < kind.toNat ∨ 256 < fld.toNat ∨ kind = 1 ∧ 15 < fld.toNat ∨ kind = 2 ∧ 255 < fld.toNat →
      exec (.putRoute i kind fld ch) s = .next (s.answered (.putRoute i kind fld ch) { status := .range, data := [] }))
    ∧ (∀ e : RouteEntry, (kind = 0 ∧ fld.toNat ≤ 256 ∧ e = .stop) ∨ (kind = 1 ∧ ∃ o : OutletNo, fld.toNat = o.val ∧ e = .outlet o (ch.getLsbD 0))
          ∨ (kind = 2 ∧ ∃ t : RouteIx, fld.toNat = t.val ∧ e = .jump t (ch.getLsbD 0)) →
      exec (.putRoute i kind fld ch) s = .next ((store { staging with routes := staging.routes.set i.toNat e }).answered (.putRoute i kind fld ch) { status := .ok, data := [] }))
    ∧ (1 < bank.toNat ∨ 1 < kind.toNat ∨ kind = 0 ∧ 63 < i.toNat →
      exec (.getPlanEntry bank kind i) s = .next (s.answered (.getPlanEntry bank kind i) { status := .range, data := [] }))
    ∧ (∀ (b : Bank) (data : List Byte), (bank = 0 ∧ b = (if s.rd.active then s.rd.bank1 else s.rd.bank0)) ∨ (bank = 1 ∧ b = staging) →
      (kind = 0 ∧ (∃ (c : ClassNo) (e : ClassEntry), i.toNat = c.val ∧ e = vget b.classes c ∧ data = be 1 e.weight ++ be 2 (match e.head with | some x => x.val | none => 256)
          ++ be 1 (if e.auditEnable then 1 else 0) ++ be 2 (match e.auditHead with | some x => x.val | none => 256)))
        ∨ (kind = 1 ∧ ∃ e : RouteEntry, e = vget b.routes (Fin.ofNat 256 i.toNat) ∧ data = (match e with
            | .stop => [0, 0, 0, 0]
            | .outlet o chain => [1, 0, BitVec.ofNat 8 o.val, if chain then 1 else 0]
            | .jump t chain => [2, 0, BitVec.ofNat 8 t.val, if chain then 1 else 0])) →
      exec (.getPlanEntry bank kind i) s = .next (s.answered (.getPlanEntry bank kind i) { status := .ok, data := data }))

/-- R59, R67 (COMMIT_PLAN, READ_PLAN_STATUS, CLEAR_PLAN_STATUS): a commit moves the active-bank indicator to the staging bank, copies it whole into the other and sets plan-valid; the plan status is read and emptied by its own requests. Each is answered OK and changes nothing
else. -/
def Obligations.CommitSwapsAndCopiesTheBanks : Prop :=
  ∀ (s : State) (staging : Bank), s.sp.resetHold = false → staging = (if s.rd.active then s.rd.bank0 else s.rd.bank1) →
    exec .commitPlan s = .next (({ s with rd := { s.rd with bank0 := staging, bank1 := staging, active := !s.rd.active, planValid := true } } : State).answered .commitPlan
      { status := .ok, data := [] })
    ∧ exec .readPlanStatus s = .next (s.answered .readPlanStatus { status := .ok, data :=
        (if s.rd.planValid then 1 else 0) :: (if s.rd.active then 1 else 0) :: (match s.rd.planStatus with
          | none => [0, 0, 0]
          | some c => [match c.kind with | .walkLimit => 1 | .pastEnd => 2 | .doubleJump => 3, BitVec.ofNat 8 c.cls.val, BitVec.ofNat 8 c.entry.val]) })
    ∧ exec .clearPlanStatus s = .next (({ s with rd := { s.rd with planStatus := none } } : State).answered .clearPlanStatus { status := .ok, data := [] })

/-- R9, R163, R164, R166, R170, R188 (START_SERVICE, STOP_SERVICE): each is taken by the service state as its rule has it, answered with the state after it, and changes nothing else; leaving FAILSAFE sets the HWM to the position, and a stop on an empty table goes on to
STANDBY with L = E. -/
def Obligations.ServiceRequestsFollowTheServiceState : Prop :=
  ∀ (s rebased : State), s.sp.resetHold = false → rebased = { s with bpu := { s.bpu with hwm := s.bpu.position, reverseExcess := false } } →
    (s.service = .serving → exec .startService s = .next (s.answered .startService { status := .ok, data := [1] }))
    ∧ (s.service = .draining → exec .startService s = .next (({ s with service := .serving } : State).answered .startService { status := .ok, data := [1] }))
    ∧ (s.service = .standby ∨ s.service = .failsafe →
      (s.rd.planValid = false → exec .startService s = .next (s.answered .startService { status := .noPlan, data := [] }))
      ∧ (s.rd.planValid = true → 16 ≤ s.bpu.errorLevel → exec .startService s = .next (s.answered .startService { status := .range, data := [] }))
      ∧ (s.rd.planValid = true → s.bpu.errorLevel < 16 → ∀ u : State, u = (if s.service = .failsafe then rebased else s) →
        exec .startService s = .next (({ u with service := .serving } : State).answered .startService { status := .ok, data := [1] })))
    ∧ (s.service = .serving → s.tc.records ≠ [] →
      exec .stopService s = .next (({ s with service := .draining } : State).answered .stopService { status := .ok, data := [2] }))
    ∧ (s.service = .serving → s.tc.records = [] → exec .stopService s =
        .next (({ s with service := .standby, ilc := { s.ilc with l := s.ilc.e } } : State).answered .stopService { status := .ok, data := [0] }))
    ∧ (s.service = .draining → exec .stopService s = .next (s.answered .stopService { status := .ok, data := [2] }))
    ∧ (s.service = .standby → exec .stopService s = .next (s.answered .stopService { status := .ok, data := [0] }))
    ∧ (s.service = .failsafe → exec .stopService s = .next (({ rebased with service := .standby } : State).answered .stopService { status := .ok, data := [0] }))

/-- R9, R22, R54, R110, R132, R161, R171, R188 (RESET_TRACKING): in every service state every live record is retired LOST with its slot's generation advanced, the outlets are emptied of their work, the link is OFFLINE with E = L = 0, the HWM is the position, the error level
0 and the state STANDBY; everything else stands, a byte on the receive line with it (the model's choice, log 7). The tallies are taken within their bounds. -/
def Obligations.ResetTrackingGivesUpEveryRecord : Prop :=
  ∀ s : State, s.sp.resetHold = false → s.tau.bounded → ∃ t : State, exec .resetTracking s = .next (t.answered .resetTracking { status := .ok, data := [0] })
    ∧ t.tc.records = []
    ∧ (∀ i : Slot, vget t.tc.gens i = vget s.tc.gens i + BitVec.ofNat 4 (s.slotCount i))
    ∧ (∀ k : KeyNo, vget t.tau.keys k = { vget s.tau.keys k with lost := min 16777215 ((vget s.tau.keys k).lost + s.keyCount k) })
    ∧ (∀ o : OutletNo, t.outlet o = { s.outlet o with
        committed := 0
        latest := none
        request := none
        strokeSet := none
        rack := if (s.outlet o).rack = .closing then .swapReady else (s.outlet o).rack })
    ∧ t.tau.latches = s.tau.latches ||| (if ∃ o : OutletNo, (s.outlet o).rack = .closing then 0x01 else 0)
    ∧ t.ilc = {
        link := .offline
        rx := s.ilc.rx
        assembler := .hunt
        badRun := 0
        silence := 0
        syncTimer := 0
        syncFrames := 0
        beaconTimer := 0
        tx := match s.ilc.tx with
          | .idle => .idle
          | .sending now _ => .sending now none
        e := 0
        l := 0 }
    ∧ t = { s with
        tc := t.tc
        outlets := t.outlets
        ilc := t.ilc
        service := .standby
        bpu := { s.bpu with hwm := s.bpu.position, reverseExcess := false, errorLevel := 0 }
        tau := { s.tau with keys := t.tau.keys, latches := t.tau.latches } }

/-- R50, R51, R189, R206 (FIND_TRACK, NEXT_TRACK, FIND_AT): a lookup answers with snapshots as spec/11 lays them out: of the record that a tag names, of the oldest or the next in belt order, or the count and the first four of the records that cover a point. A tag above 4,095
and a distance above 1,048,575 are refused RANGE, a stale tag NOT_FOUND; nothing but the port changes. -/
def Obligations.LookupsReportRecordsInBeltOrder : Prop :=
  ∀ (s : State) (tag : BitVec 16) (d : BitVec 24) (snap : Record → List Byte), s.sp.resetHold = false →
    (∀ r, snap r = be 2 (r.slot.val * 16 + r.gen.toNat) ++ [r.number] ++ be 3 r.stamp.toNat ++ be 2 r.length ++ be 1 r.cls.val ++ be 1 r.key.val
      ++ be 1 (match r.state with | .pending => 1 | .routed => 2 | .due => 3 | .fired => 4 | .carried => 5)
      ++ be 1 ((if r.flags.audit then 1 else 0) + (if r.flags.amended then 2 else 0) + (if r.flags.stampClamped then 4 else 0) + (if r.flags.rerouted then 8 else 0))
      ++ be 2 (match r.cluster with | some (.member t) => t.slot.val * 16 + t.gen.toNat | some (.leader n) => 0x8000 + n | none => 0xFFFF)
      ++ (match r.route with
        | some x => be 1 x.outlet.val ++ be 1 x.entry.val ++ be 3 x.firePoint.toNat ++ be 1 x.units
        | none => [0xFF, 0, 0, 0, 0, 0])
      ++ be 1 (match r.lastRefusal with | none => 0 | some .notOpen => 1 | some .beyondEnd => 2 | some .cls => 3 | some .key => 4 | some .span => 5 | some .capacity => 6 | some .late => 7 | some .spacing => 8)
      ++ be 1 (match r.carry with | none => 0 | some .chainEnd => 1 | some .noChain => 2 | some .planCheck => 3 | some .clusterLimit => 4 | some .overlapLate => 5 | some .fireLate => 6 | some .paddleBusy => 7 | some .strokeMiss => 8)
      ++ (match r.waypoint with
        | some w => be 1 (match r.state with | .pending => 1 | .routed => 2 | .due => 3 | .fired => 0 | .carried => 4) ++ be 3 w.toNat
        | none => [0, 0, 0, 0])
      ++ be 2 (match r.state, (s.tc.records.find? (fun q => q.tag == r.leaderTag)).bind (·.waypoint) with
        | .pending, some w => min 65535 (w - s.bpu.position).toNat
        | _, _ => 0xFFFF)) →
    (4095 < tag.toNat → ∀ c ∈ [Instr.findTrack tag, .nextTrack (some tag)], exec c s = .next (s.answered c { status := .range, data := [] }))
    ∧ (tag.toNat ≤ 4095 → (∀ r ∈ s.tc.records, r.slot.val * 16 + r.gen.toNat ≠ tag.toNat) →
      ∀ c ∈ [Instr.findTrack tag, .nextTrack (some tag)], exec c s = .next (s.answered c { status := .notFound, data := [] }))
    ∧ (∀ (r : Record) (before after : List Record), s.tc.records = before ++ r :: after → r.slot.val * 16 + r.gen.toNat = tag.toNat → s.tableLaw →
      exec (.findTrack tag) s = .next (s.answered (.findTrack tag) { status := .ok, data := snap r })
      ∧ exec (.nextTrack (some tag)) s = .next (s.answered (.nextTrack (some tag)) { status := .ok, data := match after with | q :: _ => snap q | [] => [] }))
    ∧ exec (.nextTrack none) s = .next (s.answered (.nextTrack none) { status := .ok, data := match s.tc.records with | q :: _ => snap q | [] => [] })
    ∧ (1048575 < d.toNat → exec (.findAt d) s = .next (s.answered (.findAt d) { status := .range, data := [] }))
    ∧ (d.toNat ≤ 1048575 → ∀ hits, hits = s.tc.records.filter (fun r => (s.bpu.position - d - r.stamp).toNat < r.length) →
      exec (.findAt d) s = .next (s.answered (.findAt d) { status := .ok, data := be 2 hits.length ++ (hits.take 4).flatMap snap }))

/-- R24, R44, R45, R46, R83, R190 (AMEND_TRACK): what names nothing is refused RANGE or NOT_FOUND, and a record too near its fire point, DUE or FIRED, TOO_LATE (that an argument out of range is refused where the mask does not select it is the model's choice, log 21); a PENDING or CARRIED record takes the new fields and AMENDED, and the answer is its snapshot; the cluster of a ROUTED one far enough ahead is
walked again: its units, latest fire point and routes are given back, the new fields written, and the walk starts from its leader's head or audit head as the class now stands, without an advance of the sampler and without REROUTED. The answer is the
snapshot after it. -/
def Obligations.AmendTrackChangesWhatCanStillBeChanged : Prop :=
  ∀ (s : State) (tag : BitVec 16) (sel cb kb : Byte), s.sp.resetHold = false →
    (4095 < tag.toNat ∨ (sel.getLsbD 0 = false ∧ sel.getLsbD 1 = false) ∨ 63 < cb.toNat ∨ 15 < kb.toNat →
      exec (.amendTrack tag sel cb kb) s = .next (s.answered (.amendTrack tag sel cb kb) { status := .range, data := [] }))
    ∧ (tag.toNat ≤ 4095 → (sel.getLsbD 0 = true ∨ sel.getLsbD 1 = true) → ∀ (c : ClassNo) (k : KeyNo), cb.toNat = c.val → kb.toNat = k.val →
      ((∀ r ∈ s.tc.records, r.slot.val * 16 + r.gen.toNat ≠ tag.toNat) →
        exec (.amendTrack tag sel cb kb) s = .next (s.answered (.amendTrack tag sel cb kb) { status := .notFound, data := [] }))
      ∧ ∀ (r q : Record), r ∈ s.tc.records → r.slot.val * 16 + r.gen.toNat = tag.toNat → s.tableLaw →
        q = { r with
          cls := if sel.getLsbD 0 then c else r.cls
          key := if sel.getLsbD 1 then k else r.key
          flags := { r.flags with amended := true } } →
        (r.state = .pending ∨ r.state = .carried → exec (.amendTrack tag sel cb kb) s =
          .next ((s.withRecord r.tag q).answered (.amendTrack tag sel cb kb) { status := .ok, data := (s.withRecord r.tag q).snapshot q }))
        ∧ (r.state = .due ∨ r.state = .fired ∨ (r.state = .routed ∧ ∃ route, r.route = some route
              ∧ ((route.firePoint - s.bpu.position).toNat < s.params.armMargin ∨ 8388608 ≤ (route.firePoint - s.bpu.position).toNat)) →
          exec (.amendTrack tag sel cb kb) s = .next (s.answered (.amendTrack tag sel cb kb) { status := .tooLate, data := [] }))
        ∧ (∀ route, r.state = .routed → r.route = some route → s.params.armMargin ≤ (route.firePoint - s.bpu.position).toNat →
            (route.firePoint - s.bpu.position).toNat < 8388608 → r.cluster = none →
          ∃ (t : State) (data : List Byte), exec (.amendTrack tag sel cb kb) s = .next (t.answered (.amendTrack tag sel cb kb) { status := .ok, data := data }) ∧ t.bpu = s.bpu ∧ t.aa = s.aa
            ∧ ∀ q' ∈ t.tc.records, q'.tag = r.tag → data = t.snapshot q' ∧ q'.cls = q.cls ∧ q'.key = q.key ∧ q'.flags.amended = true
              ∧ (q'.state = .routed ∨ q'.state = .carried))
        ∧ ∀ route, r.state = .routed → r.route = some route → s.params.armMargin ≤ (route.firePoint - s.bpu.position).toNat →
            (route.firePoint - s.bpu.position).toNat < 8388608 → s.booksLaw → s.endsAhead s.bpu.position (s.membersOf r.leaderTag) →
          ∃ (t : State) (q' : Record), s.amendsTo route.outlet r q t ∧ q' ∈ t.tc.records ∧ q'.tag = r.tag
            ∧ exec (.amendTrack tag sel cb kb) s = .next (t.answered (.amendTrack tag sel cb kb) { status := .ok, data := t.snapshot q' }))

/-- R24, R42, R47, R48, R49, R77, R121, R166, R191 (WITHDRAW_TRACK): a FIRED record is refused TOO_LATE; a lone PENDING or CARRIED record is retired WITHDRAWN under its key; a lone ROUTED or DUE one also gives back its units, its latest fire point
and its request; the answer holds the state it was in, and 0xFFFF for no leader (the model's choice of the code, log 16). Of a cluster of several, PENDING, ROUTED or DUE, the one record leaves with its own units and its place in the request; the others
stay as they are, led by the first of them when it was the leader, with the latest fire point naming the cluster under its new leader; and a PENDING cluster whose new decision point lies at or behind the position is decided at once. -/
def Obligations.WithdrawTrackRetiresTheRecord : Prop :=
  ∀ (s : State) (tag : BitVec 16) (r : Record), s.sp.resetHold = false →
    (4095 < tag.toNat → exec (.withdrawTrack tag) s = .next (s.answered (.withdrawTrack tag) { status := .range, data := [] }))
    ∧ (tag.toNat ≤ 4095 → (∀ r ∈ s.tc.records, r.slot.val * 16 + r.gen.toNat ≠ tag.toNat) →
      exec (.withdrawTrack tag) s = .next (s.answered (.withdrawTrack tag) { status := .notFound, data := [] }))
    ∧ (r ∈ s.tc.records → r.slot.val * 16 + r.gen.toNat = tag.toNat → s.tableLaw →
      (r.state = .fired → exec (.withdrawTrack tag) s = .next (s.answered (.withdrawTrack tag) { status := .tooLate, data := [] }))
      ∧ (r.state ≠ .fired → r.cluster = none → (∀ q ∈ s.tc.records, q.tag ≠ r.tag → q.leaderTag ≠ r.tag) →
        ((r.state = .routed ∨ r.state = .due) ∧ r.route ≠ none ∨ (r.state = .pending ∨ r.state = .carried) ∧ r.route = none) →
        ∃ t : State, exec (.withdrawTrack tag) s = .next (t.answered (.withdrawTrack tag)
            { status := .ok, data := [match r.state with | .pending => 1 | .routed => 2 | .due => 3 | .fired => 4 | .carried => 5, 0xFF, 0xFF] })
          ∧ TakenOut t s [r.tag]
          ∧ (∀ j, t.outlet j = match r.route with
            | some route => if j = route.outlet then
                { (s.outlet j).less route.units with
                  latest := if ∃ l, (s.outlet j).latest = some l ∧ l.owner = r.tag then none else (s.outlet j).latest
                  request := match (s.outlet j).request with
                    | some (.deadline ms late u) =>
                      if r.tag ∈ ms then (if ms.filter (fun m => m != r.tag) = [] then none else some (.deadline (ms.filter (fun m => m != r.tag)) late (u - route.units)))
                      else some (.deadline ms late u)
                    | other => other }
              else s.outlet j
            | none => s.outlet j)
          ∧ t = { s with
              tc := t.tc
              outlets := t.outlets
              service := t.service
              ilc := t.ilc
              tau := { s.tau with
                keys := s.tau.keys.set r.key.val { vget s.tau.keys r.key with withdrawn := min 16777215 ((vget s.tau.keys r.key).withdrawn + 1) }
                latches := match r.route with
                  | some route => s.tau.latches ||| (s.outlet route.outlet).emptiedBy route.units
                  | none => s.tau.latches } })
      ∧ ∀ (ms : List Record) (lead : Record) (u : State) (code : Byte), r.state ≠ .fired → r.cluster ≠ none → s.booksLaw →
        ms = (s.membersOf r.leaderTag).filter (fun q => q.tag != r.tag) → ms.head? = some lead → (r.leaderTag ≠ r.tag → lead.tag = r.leaderTag) →
        code = (match r.state with | .pending => 1 | .routed => 2 | .due => 3 | .fired => 4 | .carried => 5) →
        u = { s with
          tc := {
            records := (s.tc.records.filter (fun q => q.tag != r.tag)).map (fun q => if q.tag ∈ ms.map Record.tag then s.relinked lead.tag ms.length q else q)
            gens := s.tc.gens.set r.slot.val (vget s.tc.gens r.slot + 1) }
          outlets := match r.route with
            | none => s.outlets
            | some route => s.outlets.set route.outlet.val { (s.outlet route.outlet).less route.units with
                latest := match (s.outlet route.outlet).latest with
                  | some l => if l.owner = r.leaderTag then some { l with owner := lead.tag } else some l
                  | none => none
                request := match (s.outlet route.outlet).request with
                  | some (.deadline ts late u) => if r.tag ∈ ts then some (.deadline (ts.filter (fun x => x != r.tag)) late (u - route.units)) else some (.deadline ts late u)
                  | other => other }
          tau := { s.tau with
            keys := s.tau.keys.set r.key.val { vget s.tau.keys r.key with withdrawn := min 16777215 ((vget s.tau.keys r.key).withdrawn + 1) }
            latches := match r.route with
              | some route => s.tau.latches ||| (s.outlet route.outlet).emptiedBy route.units
              | none => s.tau.latches } } →
        (r.state ≠ .pending ∨ r.leaderTag ≠ r.tag ∨ atOrBeyond s.bpu.position (plus lead.stamp s.params.q) = false →
          exec (.withdrawTrack tag) s = .next (u.answered (.withdrawTrack tag)
            { status := .ok, data := code :: be 2 (if ms.length = 1 then 0xFFFF else lead.slot.val * 16 + lead.gen.toNat) }))
        ∧ (r.state = .pending → r.leaderTag = r.tag → atOrBeyond s.bpu.position (plus lead.stamp s.params.q) = true → s.endsAhead s.bpu.position ms →
          ∃ (t : State) (lead' : Record), u.decidesTo (u.membersOf lead.tag) (s.relinked lead.tag ms.length lead) t ∧ lead' ∈ t.tc.records ∧ lead'.tag = lead.tag
            ∧ exec (.withdrawTrack tag) s = .next (t.answered (.withdrawTrack tag)
              { status := .ok, data := code :: be 2 (if lead'.cluster = none then 0xFFFF else lead.slot.val * 16 + lead.gen.toNat) })))

/-- R192, R193, R194, R199 (READ_TALLIES, SET_ATTENTION, ACK_ATTENTION): a group's tallies are returned in their order as they stand, and set to 0 after it by the clear selection; what names no group or index is refused RANGE. SET ATTENTION writes the enables and the line map, ACK ATTENTION clears the selected
latches, and nothing else changes. -/
def Obligations.TalliesAndAttentionAreReadAndCleared : Prop :=
  ∀ (s : State) (g i clr e m : Byte), s.sp.resetHold = false →
    (2 < g.toNat ∨ g.toNat ≤ 1 ∧ 15 < i.toNat → exec (.readTallies g i clr) s = .next (s.answered (.readTallies g i clr) { status := .range, data := [] }))
    ∧ (∀ k : KeyNo, g = 0 → i.toNat = k.val → ∀ x : KeyTally, x = vget s.tau.keys k →
      exec (.readTallies g i clr) s = .next (({ s with tau := { s.tau with
          keys := if clr.getLsbD 0 then s.tau.keys.set k.val { delivered := 0, ended := 0, withdrawn := 0, lost := 0, racks := 0 } else s.tau.keys } } : State).answered
        (.readTallies g i clr) { status := .ok, data := [x.delivered, x.ended, x.withdrawn, x.lost, x.racks].flatMap (be 3) }))
    ∧ (∀ o : OutletNo, g = 1 → i.toNat = o.val → ∀ x : OutletTally, x = vget s.tau.outlets o →
      exec (.readTallies g i clr) s = .next (({ s with tau := { s.tau with
          outlets := if clr.getLsbD 0 then s.tau.outlets.set o.val { items := 0, units := 0, strokes := 0, misses := 0, abandoned := 0, strays := 0, racks := 0 }
            else s.tau.outlets } } : State).answered
        (.readTallies g i clr) { status := .ok, data := [x.items, x.units, x.strokes, x.misses, x.abandoned, x.strays, x.racks].flatMap (be 3) }))
    ∧ (g = 2 → ∀ x : DeviceTally, x = s.tau.device →
      exec (.readTallies g i clr) s = .next (({ s with tau := { s.tau with
          device := if clr.getLsbD 0 then
              { badFrames := 0, outOfOrder := 0, overruns := 0, refused := 0, stale := 0, gapTotal := 0, unmatched := 0, planChecks := 0, trackLosses := 0, encoderFaults := 0 }
            else x } } : State).answered
        (.readTallies g i clr) { status := .ok, data := [x.badFrames, x.outOfOrder, x.overruns, x.refused, x.stale, x.gapTotal, x.unmatched, x.planChecks, x.trackLosses,
          x.encoderFaults].flatMap (be 3) }))
    ∧ exec (.setAttention e m) s = .next (({ s with tau := { s.tau with enables := e, lineMap := m } } : State).answered (.setAttention e m) { status := .ok, data := [e, m] })
    ∧ exec (.ackAttention e) s = .next (({ s with tau := { s.tau with latches := s.tau.latches &&& ~~~e } } : State).answered (.ackAttention e)
        { status := .ok, data := [s.tau.latches &&& ~~~e] })

/-! ### The laws of every state -/

/-- The laws hold in the state after reset, and after POWER_ON_RESET from any state. -/
def Obligations.LawsHoldAfterReset : Prop :=
  ∀ t : State, (t = State.reset ∨ ∃ (csLow : Bool) (s : State), exec (.powerOnReset csLow) s = .next t) →
    t.capacityLaw ∧ t.slotLaw ∧ t.tableLaw ∧ t.excessLaw ∧ t.restLaw ∧ t.creditLaw ∧ t.rangeLaw ∧ t.tau.bounded ∧ t.booksLaw ∧ t.orderLaw

/-- R4, R13, R76, R86, R88, R122, R128, R184: every step of every command keeps that fill and committed units fit in the capacity of every outlet; that the slots in use are the paddles in STROKE; and that parameters, fields, speed, error level and
miss runs stay in their ranges. -/
def Obligations.EveryStepKeepsTheOutletLaws : Prop :=
  ∀ s t : State, step s = .next t →
    (s.capacityLaw → t.capacityLaw) ∧ (s.slotLaw → t.slotLaw) ∧ (s.capacityLaw → s.rangeLaw → t.rangeLaw)

/-- R8, R23, R25, R26, R27, R148, R156, R162: from every state in which the credit outstanding is covered by FREE slots, every command has a next state, in which it is covered again; and every step keeps that no slot holds two records, that the reverse excess
says whether the position lies beyond REVERSE_ALLOW behind the HWM, that STANDBY and FAILSAFE have no record and no credit, and of a live record its number, stamp and length, every flag once set, and, until it is amended, its class and key. -/
def Obligations.EveryStepKeepsTheCreditAndTableLaws : Prop :=
  (∀ s : State, s.creditLaw → ∃ t, step s = .next t ∧ t.creditLaw)
    ∧ ∀ s t : State, step s = .next t → (s.tableLaw → t.tableLaw) ∧ (s.excessLaw → t.excessLaw) ∧ (s.restLaw → t.restLaw)
      ∧ (s.tableLaw → ∀ r ∈ s.tc.records, ∀ q ∈ t.tc.records, q.tag = r.tag →
          q.number = r.number ∧ q.stamp = r.stamp ∧ q.length = r.length ∧ q.flags.stampClamped = r.flags.stampClamped
            ∧ (r.flags.audit = true → q.flags.audit = true) ∧ (r.flags.amended = true → q.flags.amended = true)
            ∧ (r.flags.rerouted = true → q.flags.rerouted = true) ∧ (q.flags.amended = false → q.cls = r.cls ∧ q.key = r.key))

/-- R26, R31, R35, R38, R39, R42, R76, R118, R126: every step of every command keeps the books: a record holds a route exactly when it is ROUTED, DUE or FIRED, and a carry reason exactly when it is CARRIED; a cluster has 2 to 8 members of one state, outlet and
fire point, and a leader that is one of them; the committed units of an outlet are the sum of the units of the routes there; and stroke sets and deadline requests hold just the FIRED and the DUE records of their outlets. While no live record's stamp
and no stamp that a notice may bring lies as far as half the position range behind the HWM, every step also keeps the belt-order list in order; records exist only in SERVING and DRAINING, where the HWM is never set back. -/
def Obligations.EveryStepKeepsTheBooks : Prop :=
  ∀ s t : State, step s = .next t →
    (s.booksLaw → t.booksLaw)
    ∧ (s.restLaw → (∀ r ∈ s.tc.records, ahead s.bpu.hwm r.stamp < 8388607) → ahead s.bpu.hwm s.bpu.position + s.params.noticeAge < 8388607 → s.orderLaw → t.orderLaw)

/-- R55, R56, R57, R59, R60, R84, R85, R192, R195, R199: tallies stay within 0 to 16,777,215 and none decreases but by READ_TALLIES with clear or POWER_ON_RESET; the plan banks, the active-bank indicator and plan-valid change by PUT_CLASS, PUT_ROUTE, COMMIT_PLAN and POWER_ON_RESET alone. A
BAD_PORT_FRAME whose bytes are a request counts as that request. -/
def Obligations.TalliesNeverFallAndPlansStand : Prop :=
  ∀ (c : Instr) (s t : State), exec c s = .next t → s.tau.bounded →
    t.tau.bounded
    ∧ ((∀ csLow, c ≠ .powerOnReset csLow) → (∀ g i clr, c = .readTallies g i clr → clr.getLsbD 0 = false) →
        (∀ bytes extra g i clr, c = .badPortFrame bytes extra → judgePortFrame bytes extra = .request (.readTallies g i clr) → clr.getLsbD 0 = false) →
        s.tau.le t.tau)
    ∧ ((∀ csLow, c ≠ .powerOnReset csLow) → (∀ cls w h a ah, c ≠ .putClass cls w h a ah) → (∀ i k f ch, c ≠ .putRoute i k f ch) → c ≠ .commitPlan →
        (∀ bytes extra r, c = .badPortFrame bytes extra → judgePortFrame bytes extra = .request r →
          (∀ cls w h a ah, r ≠ .putClass cls w h a ah) ∧ (∀ i k f ch, r ≠ .putRoute i k f ch) ∧ r ≠ .commitPlan) →
        t.rd.bank0 = s.rd.bank0 ∧ t.rd.bank1 = s.rd.bank1 ∧ t.rd.active = s.rd.active ∧ t.rd.planValid = s.rd.planValid)
end

