-- ==== Sys2Proof/Laws/State.lean ====
section
/-! SUPPORT. The field lemmas of the named updates: what each leaves, and what it sets. -/

namespace Sys2Proof.Machine

/-! ### Tables -/

theorem vget_vset {α : Type} {n : Nat} (v : Vector α n) (i j : Fin n) (x : α) : vget (vset v i x) j = if i = j then x else vget v j := by
  simp [vget, vset, Vector.getElem_set, Fin.ext_iff]

@[simp] theorem vget_vset_self {α : Type} {n : Nat} (v : Vector α n) (i : Fin n) (x : α) : vget (vset v i x) i = x := by simp [vget_vset]

theorem vget_vset_ne {α : Type} {n : Nat} (v : Vector α n) {i j : Fin n} (h : i ≠ j) (x : α) : vget (vset v i x) j = vget v j := by
  simp [vget_vset, h]

/-- Two tables with the same entries are one table. -/
theorem vget_ext {α : Type} {n : Nat} {v w : Vector α n} (h : ∀ i, vget v i = vget w i) : v = w :=
  Vector.ext fun i hi => h ⟨i, hi⟩

@[simp] theorem mem_outletNos (o : OutletNo) : o ∈ outletNos := by revert o; decide

theorem outletNos_nodup : outletNos.Nodup := by decide


/-! ### Outlets -/

@[simp] theorem State.setOutlet_params (s : State) (o : OutletNo) (x : Outlet) : (s.setOutlet o x).params = s.params := rfl
@[simp] theorem State.setOutlet_time (s : State) (o : OutletNo) (x : Outlet) : (s.setOutlet o x).time = s.time := rfl
@[simp] theorem State.setOutlet_bpu (s : State) (o : OutletNo) (x : Outlet) : (s.setOutlet o x).bpu = s.bpu := rfl
@[simp] theorem State.setOutlet_tc (s : State) (o : OutletNo) (x : Outlet) : (s.setOutlet o x).tc = s.tc := rfl
@[simp] theorem State.setOutlet_rd (s : State) (o : OutletNo) (x : Outlet) : (s.setOutlet o x).rd = s.rd := rfl
@[simp] theorem State.setOutlet_oc (s : State) (o : OutletNo) (x : Outlet) : (s.setOutlet o x).oc = s.oc := rfl
@[simp] theorem State.setOutlet_aa (s : State) (o : OutletNo) (x : Outlet) : (s.setOutlet o x).aa = s.aa := rfl
@[simp] theorem State.setOutlet_ilc (s : State) (o : OutletNo) (x : Outlet) : (s.setOutlet o x).ilc = s.ilc := rfl
@[simp] theorem State.setOutlet_sp (s : State) (o : OutletNo) (x : Outlet) : (s.setOutlet o x).sp = s.sp := rfl
@[simp] theorem State.setOutlet_service (s : State) (o : OutletNo) (x : Outlet) : (s.setOutlet o x).service = s.service := rfl
@[simp] theorem State.setOutlet_tau (s : State) (o : OutletNo) (x : Outlet) : (s.setOutlet o x).tau = s.tau := rfl
@[simp] theorem State.setOutlet_pins (s : State) (o : OutletNo) (x : Outlet) : (s.setOutlet o x).pins = s.pins := rfl
@[simp] theorem State.setOutlet_due (s : State) (o : OutletNo) (x : Outlet) : (s.setOutlet o x).due = s.due := rfl
@[simp] theorem State.setOutlet_freeNext (s : State) (o : OutletNo) (x : Outlet) : (s.setOutlet o x).freeNext = s.freeNext := rfl
@[simp] theorem State.setOutlet_pending (s : State) (o : OutletNo) (x : Outlet) : (s.setOutlet o x).pending = s.pending := rfl

@[simp] theorem State.outlet_setOutlet_self (s : State) (o : OutletNo) (x : Outlet) : (s.setOutlet o x).outlet o = x := by
  simp [State.outlet, State.setOutlet]

theorem State.outlet_setOutlet (s : State) (o j : OutletNo) (x : Outlet) : (s.setOutlet o x).outlet j = if o = j then x else s.outlet j := by
  simp [State.outlet, State.setOutlet, vget_vset]

theorem State.outlet_setOutlet_ne (s : State) {o j : OutletNo} (h : o ≠ j) (x : Outlet) : (s.setOutlet o x).outlet j = s.outlet j := by
  simp [State.outlet_setOutlet, h]

@[simp] theorem State.modOutlet_params (s : State) (o : OutletNo) (f : Outlet → Outlet) : (s.modOutlet o f).params = s.params := rfl
@[simp] theorem State.modOutlet_time (s : State) (o : OutletNo) (f : Outlet → Outlet) : (s.modOutlet o f).time = s.time := rfl
@[simp] theorem State.modOutlet_bpu (s : State) (o : OutletNo) (f : Outlet → Outlet) : (s.modOutlet o f).bpu = s.bpu := rfl
@[simp] theorem State.modOutlet_tc (s : State) (o : OutletNo) (f : Outlet → Outlet) : (s.modOutlet o f).tc = s.tc := rfl
@[simp] theorem State.modOutlet_rd (s : State) (o : OutletNo) (f : Outlet → Outlet) : (s.modOutlet o f).rd = s.rd := rfl
@[simp] theorem State.modOutlet_oc (s : State) (o : OutletNo) (f : Outlet → Outlet) : (s.modOutlet o f).oc = s.oc := rfl
@[simp] theorem State.modOutlet_aa (s : State) (o : OutletNo) (f : Outlet → Outlet) : (s.modOutlet o f).aa = s.aa := rfl
@[simp] theorem State.modOutlet_ilc (s : State) (o : OutletNo) (f : Outlet → Outlet) : (s.modOutlet o f).ilc = s.ilc := rfl
@[simp] theorem State.modOutlet_sp (s : State) (o : OutletNo) (f : Outlet → Outlet) : (s.modOutlet o f).sp = s.sp := rfl
@[simp] theorem State.modOutlet_service (s : State) (o : OutletNo) (f : Outlet → Outlet) : (s.modOutlet o f).service = s.service := rfl
@[simp] theorem State.modOutlet_tau (s : State) (o : OutletNo) (f : Outlet → Outlet) : (s.modOutlet o f).tau = s.tau := rfl
@[simp] theorem State.modOutlet_pins (s : State) (o : OutletNo) (f : Outlet → Outlet) : (s.modOutlet o f).pins = s.pins := rfl
@[simp] theorem State.modOutlet_due (s : State) (o : OutletNo) (f : Outlet → Outlet) : (s.modOutlet o f).due = s.due := rfl
@[simp] theorem State.modOutlet_freeNext (s : State) (o : OutletNo) (f : Outlet → Outlet) : (s.modOutlet o f).freeNext = s.freeNext := rfl
@[simp] theorem State.modOutlet_pending (s : State) (o : OutletNo) (f : Outlet → Outlet) : (s.modOutlet o f).pending = s.pending := rfl

@[simp] theorem State.outlet_modOutlet_self (s : State) (o : OutletNo) (f : Outlet → Outlet) : (s.modOutlet o f).outlet o = f (s.outlet o) := by
  simp [State.modOutlet]

theorem State.outlet_modOutlet (s : State) (o j : OutletNo) (f : Outlet → Outlet) :
    (s.modOutlet o f).outlet j = if o = j then f (s.outlet j) else s.outlet j := by
  by_cases h : o = j
  · subst h; simp
  · simp [State.modOutlet, State.outlet_setOutlet, h]

theorem State.outlet_modOutlet_ne (s : State) {o j : OutletNo} (h : o ≠ j) (f : Outlet → Outlet) : (s.modOutlet o f).outlet j = s.outlet j := by
  simp [State.outlet_modOutlet, h]

@[simp] theorem State.mapOutlets_params (s : State) (f : OutletNo → Outlet → Outlet) : (s.mapOutlets f).params = s.params := by simp only [State.mapOutlets]
@[simp] theorem State.mapOutlets_time (s : State) (f : OutletNo → Outlet → Outlet) : (s.mapOutlets f).time = s.time := by simp only [State.mapOutlets]
@[simp] theorem State.mapOutlets_bpu (s : State) (f : OutletNo → Outlet → Outlet) : (s.mapOutlets f).bpu = s.bpu := by simp only [State.mapOutlets]
@[simp] theorem State.mapOutlets_tc (s : State) (f : OutletNo → Outlet → Outlet) : (s.mapOutlets f).tc = s.tc := by simp only [State.mapOutlets]
@[simp] theorem State.mapOutlets_rd (s : State) (f : OutletNo → Outlet → Outlet) : (s.mapOutlets f).rd = s.rd := by simp only [State.mapOutlets]
@[simp] theorem State.mapOutlets_oc (s : State) (f : OutletNo → Outlet → Outlet) : (s.mapOutlets f).oc = s.oc := by simp only [State.mapOutlets]
@[simp] theorem State.mapOutlets_aa (s : State) (f : OutletNo → Outlet → Outlet) : (s.mapOutlets f).aa = s.aa := by simp only [State.mapOutlets]
@[simp] theorem State.mapOutlets_ilc (s : State) (f : OutletNo → Outlet → Outlet) : (s.mapOutlets f).ilc = s.ilc := by simp only [State.mapOutlets]
@[simp] theorem State.mapOutlets_sp (s : State) (f : OutletNo → Outlet → Outlet) : (s.mapOutlets f).sp = s.sp := by simp only [State.mapOutlets]
@[simp] theorem State.mapOutlets_service (s : State) (f : OutletNo → Outlet → Outlet) : (s.mapOutlets f).service = s.service := by simp only [State.mapOutlets]
@[simp] theorem State.mapOutlets_tau (s : State) (f : OutletNo → Outlet → Outlet) : (s.mapOutlets f).tau = s.tau := by simp only [State.mapOutlets]
@[simp] theorem State.mapOutlets_pins (s : State) (f : OutletNo → Outlet → Outlet) : (s.mapOutlets f).pins = s.pins := by simp only [State.mapOutlets]
@[simp] theorem State.mapOutlets_due (s : State) (f : OutletNo → Outlet → Outlet) : (s.mapOutlets f).due = s.due := by simp only [State.mapOutlets]
@[simp] theorem State.mapOutlets_freeNext (s : State) (f : OutletNo → Outlet → Outlet) : (s.mapOutlets f).freeNext = s.freeNext := by simp only [State.mapOutlets]
@[simp] theorem State.mapOutlets_pending (s : State) (f : OutletNo → Outlet → Outlet) : (s.mapOutlets f).pending = s.pending := by simp only [State.mapOutlets]

theorem vget_foldl_vset {α : Type} {n : Nat} (f : Fin n → α → α) (l : List (Fin n)) (hl : l.Nodup) (v : Vector α n) (j : Fin n) :
    vget (l.foldl (fun v o => vset v o (f o (vget v o))) v) j = if j ∈ l then f j (vget v j) else vget v j := by
  induction l generalizing v with
  | nil => simp
  | cons a l ih =>
    obtain ⟨ha, hl⟩ := List.nodup_cons.mp hl
    rw [List.foldl_cons, ih hl]
    by_cases h : a = j
    · subst h; simp [ha]
    · rw [vget_vset_ne _ h]; simp [Ne.symm h]

@[simp] theorem State.outlet_mapOutlets (s : State) (f : OutletNo → Outlet → Outlet) (j : OutletNo) :
    (s.mapOutlets f).outlet j = f j (s.outlet j) := by
  have := vget_foldl_vset f outletNos outletNos_nodup s.outlets j
  simpa [State.mapOutlets, State.outlet] using this

/-! ### Attention and tallies -/

@[simp] theorem State.raise_params (s : State) (c : Source) : (s.raise c).params = s.params := rfl
@[simp] theorem State.raise_time (s : State) (c : Source) : (s.raise c).time = s.time := rfl
@[simp] theorem State.raise_bpu (s : State) (c : Source) : (s.raise c).bpu = s.bpu := rfl
@[simp] theorem State.raise_tc (s : State) (c : Source) : (s.raise c).tc = s.tc := rfl
@[simp] theorem State.raise_rd (s : State) (c : Source) : (s.raise c).rd = s.rd := rfl
@[simp] theorem State.raise_oc (s : State) (c : Source) : (s.raise c).oc = s.oc := rfl
@[simp] theorem State.raise_outlets (s : State) (c : Source) : (s.raise c).outlets = s.outlets := rfl
@[simp] theorem State.raise_aa (s : State) (c : Source) : (s.raise c).aa = s.aa := rfl
@[simp] theorem State.raise_ilc (s : State) (c : Source) : (s.raise c).ilc = s.ilc := rfl
@[simp] theorem State.raise_sp (s : State) (c : Source) : (s.raise c).sp = s.sp := rfl
@[simp] theorem State.raise_service (s : State) (c : Source) : (s.raise c).service = s.service := rfl
@[simp] theorem State.raise_pins (s : State) (c : Source) : (s.raise c).pins = s.pins := rfl
@[simp] theorem State.raise_due (s : State) (c : Source) : (s.raise c).due = s.due := rfl
@[simp] theorem State.raise_freeNext (s : State) (c : Source) : (s.raise c).freeNext = s.freeNext := rfl
@[simp] theorem State.raise_pending (s : State) (c : Source) : (s.raise c).pending = s.pending := rfl

@[simp] theorem State.raise_tau_keys (s : State) (c : Source) : (s.raise c).tau.keys = s.tau.keys := rfl
@[simp] theorem State.raise_tau_outlets (s : State) (c : Source) : (s.raise c).tau.outlets = s.tau.outlets := rfl
@[simp] theorem State.raise_tau_device (s : State) (c : Source) : (s.raise c).tau.device = s.tau.device := rfl
@[simp] theorem State.raise_tau_enables (s : State) (c : Source) : (s.raise c).tau.enables = s.tau.enables := rfl
@[simp] theorem State.raise_tau_lineMap (s : State) (c : Source) : (s.raise c).tau.lineMap = s.tau.lineMap := rfl
@[simp] theorem State.raise_tau_latches (s : State) (c : Source) : (s.raise c).tau.latches = s.tau.latches ||| c.bit := rfl

@[simp] theorem State.raiseIf_params (s : State) (b : Bool) (c : Source) : (s.raiseIf b c).params = s.params := by cases b <;> rfl
@[simp] theorem State.raiseIf_time (s : State) (b : Bool) (c : Source) : (s.raiseIf b c).time = s.time := by cases b <;> rfl
@[simp] theorem State.raiseIf_bpu (s : State) (b : Bool) (c : Source) : (s.raiseIf b c).bpu = s.bpu := by cases b <;> rfl
@[simp] theorem State.raiseIf_tc (s : State) (b : Bool) (c : Source) : (s.raiseIf b c).tc = s.tc := by cases b <;> rfl
@[simp] theorem State.raiseIf_rd (s : State) (b : Bool) (c : Source) : (s.raiseIf b c).rd = s.rd := by cases b <;> rfl
@[simp] theorem State.raiseIf_oc (s : State) (b : Bool) (c : Source) : (s.raiseIf b c).oc = s.oc := by cases b <;> rfl
@[simp] theorem State.raiseIf_outlets (s : State) (b : Bool) (c : Source) : (s.raiseIf b c).outlets = s.outlets := by cases b <;> rfl
@[simp] theorem State.raiseIf_aa (s : State) (b : Bool) (c : Source) : (s.raiseIf b c).aa = s.aa := by cases b <;> rfl
@[simp] theorem State.raiseIf_ilc (s : State) (b : Bool) (c : Source) : (s.raiseIf b c).ilc = s.ilc := by cases b <;> rfl
@[simp] theorem State.raiseIf_sp (s : State) (b : Bool) (c : Source) : (s.raiseIf b c).sp = s.sp := by cases b <;> rfl
@[simp] theorem State.raiseIf_service (s : State) (b : Bool) (c : Source) : (s.raiseIf b c).service = s.service := by cases b <;> rfl
@[simp] theorem State.raiseIf_pins (s : State) (b : Bool) (c : Source) : (s.raiseIf b c).pins = s.pins := by cases b <;> rfl
@[simp] theorem State.raiseIf_due (s : State) (b : Bool) (c : Source) : (s.raiseIf b c).due = s.due := by cases b <;> rfl
@[simp] theorem State.raiseIf_freeNext (s : State) (b : Bool) (c : Source) : (s.raiseIf b c).freeNext = s.freeNext := by cases b <;> rfl
@[simp] theorem State.raiseIf_pending (s : State) (b : Bool) (c : Source) : (s.raiseIf b c).pending = s.pending := by cases b <;> rfl

@[simp] theorem State.raiseIf_tau_keys (s : State) (b : Bool) (c : Source) : (s.raiseIf b c).tau.keys = s.tau.keys := by cases b <;> rfl
@[simp] theorem State.raiseIf_tau_outlets (s : State) (b : Bool) (c : Source) : (s.raiseIf b c).tau.outlets = s.tau.outlets := by cases b <;> rfl
@[simp] theorem State.raiseIf_tau_device (s : State) (b : Bool) (c : Source) : (s.raiseIf b c).tau.device = s.tau.device := by cases b <;> rfl
@[simp] theorem State.raiseIf_tau_enables (s : State) (b : Bool) (c : Source) : (s.raiseIf b c).tau.enables = s.tau.enables := by cases b <;> rfl
@[simp] theorem State.raiseIf_tau_lineMap (s : State) (b : Bool) (c : Source) : (s.raiseIf b c).tau.lineMap = s.tau.lineMap := by cases b <;> rfl

@[simp] theorem State.countKey_params (s : State) (k : KeyNo) (c : KeyCount) : (s.countKey k c).params = s.params := rfl
@[simp] theorem State.countKey_time (s : State) (k : KeyNo) (c : KeyCount) : (s.countKey k c).time = s.time := rfl
@[simp] theorem State.countKey_bpu (s : State) (k : KeyNo) (c : KeyCount) : (s.countKey k c).bpu = s.bpu := rfl
@[simp] theorem State.countKey_tc (s : State) (k : KeyNo) (c : KeyCount) : (s.countKey k c).tc = s.tc := rfl
@[simp] theorem State.countKey_rd (s : State) (k : KeyNo) (c : KeyCount) : (s.countKey k c).rd = s.rd := rfl
@[simp] theorem State.countKey_oc (s : State) (k : KeyNo) (c : KeyCount) : (s.countKey k c).oc = s.oc := rfl
@[simp] theorem State.countKey_outlets (s : State) (k : KeyNo) (c : KeyCount) : (s.countKey k c).outlets = s.outlets := rfl
@[simp] theorem State.countKey_aa (s : State) (k : KeyNo) (c : KeyCount) : (s.countKey k c).aa = s.aa := rfl
@[simp] theorem State.countKey_ilc (s : State) (k : KeyNo) (c : KeyCount) : (s.countKey k c).ilc = s.ilc := rfl
@[simp] theorem State.countKey_sp (s : State) (k : KeyNo) (c : KeyCount) : (s.countKey k c).sp = s.sp := rfl
@[simp] theorem State.countKey_service (s : State) (k : KeyNo) (c : KeyCount) : (s.countKey k c).service = s.service := rfl
@[simp] theorem State.countKey_pins (s : State) (k : KeyNo) (c : KeyCount) : (s.countKey k c).pins = s.pins := rfl
@[simp] theorem State.countKey_due (s : State) (k : KeyNo) (c : KeyCount) : (s.countKey k c).due = s.due := rfl
@[simp] theorem State.countKey_freeNext (s : State) (k : KeyNo) (c : KeyCount) : (s.countKey k c).freeNext = s.freeNext := rfl
@[simp] theorem State.countKey_pending (s : State) (k : KeyNo) (c : KeyCount) : (s.countKey k c).pending = s.pending := rfl

@[simp] theorem State.countOutlet_params (s : State) (o : OutletNo) (c : OutletCount) (n : Nat) : (s.countOutlet o c n).params = s.params := rfl
@[simp] theorem State.countOutlet_time (s : State) (o : OutletNo) (c : OutletCount) (n : Nat) : (s.countOutlet o c n).time = s.time := rfl
@[simp] theorem State.countOutlet_bpu (s : State) (o : OutletNo) (c : OutletCount) (n : Nat) : (s.countOutlet o c n).bpu = s.bpu := rfl
@[simp] theorem State.countOutlet_tc (s : State) (o : OutletNo) (c : OutletCount) (n : Nat) : (s.countOutlet o c n).tc = s.tc := rfl
@[simp] theorem State.countOutlet_rd (s : State) (o : OutletNo) (c : OutletCount) (n : Nat) : (s.countOutlet o c n).rd = s.rd := rfl
@[simp] theorem State.countOutlet_oc (s : State) (o : OutletNo) (c : OutletCount) (n : Nat) : (s.countOutlet o c n).oc = s.oc := rfl
@[simp] theorem State.countOutlet_outlets (s : State) (o : OutletNo) (c : OutletCount) (n : Nat) : (s.countOutlet o c n).outlets = s.outlets := rfl
@[simp] theorem State.countOutlet_aa (s : State) (o : OutletNo) (c : OutletCount) (n : Nat) : (s.countOutlet o c n).aa = s.aa := rfl
@[simp] theorem State.countOutlet_ilc (s : State) (o : OutletNo) (c : OutletCount) (n : Nat) : (s.countOutlet o c n).ilc = s.ilc := rfl
@[simp] theorem State.countOutlet_sp (s : State) (o : OutletNo) (c : OutletCount) (n : Nat) : (s.countOutlet o c n).sp = s.sp := rfl
@[simp] theorem State.countOutlet_service (s : State) (o : OutletNo) (c : OutletCount) (n : Nat) : (s.countOutlet o c n).service = s.service := rfl
@[simp] theorem State.countOutlet_pins (s : State) (o : OutletNo) (c : OutletCount) (n : Nat) : (s.countOutlet o c n).pins = s.pins := rfl
@[simp] theorem State.countOutlet_due (s : State) (o : OutletNo) (c : OutletCount) (n : Nat) : (s.countOutlet o c n).due = s.due := rfl
@[simp] theorem State.countOutlet_freeNext (s : State) (o : OutletNo) (c : OutletCount) (n : Nat) : (s.countOutlet o c n).freeNext = s.freeNext := rfl
@[simp] theorem State.countOutlet_pending (s : State) (o : OutletNo) (c : OutletCount) (n : Nat) : (s.countOutlet o c n).pending = s.pending := rfl

@[simp] theorem State.countDevice_params (s : State) (c : DeviceCount) (n : Nat) : (s.countDevice c n).params = s.params := rfl
@[simp] theorem State.countDevice_time (s : State) (c : DeviceCount) (n : Nat) : (s.countDevice c n).time = s.time := rfl
@[simp] theorem State.countDevice_bpu (s : State) (c : DeviceCount) (n : Nat) : (s.countDevice c n).bpu = s.bpu := rfl
@[simp] theorem State.countDevice_tc (s : State) (c : DeviceCount) (n : Nat) : (s.countDevice c n).tc = s.tc := rfl
@[simp] theorem State.countDevice_rd (s : State) (c : DeviceCount) (n : Nat) : (s.countDevice c n).rd = s.rd := rfl
@[simp] theorem State.countDevice_oc (s : State) (c : DeviceCount) (n : Nat) : (s.countDevice c n).oc = s.oc := rfl
@[simp] theorem State.countDevice_outlets (s : State) (c : DeviceCount) (n : Nat) : (s.countDevice c n).outlets = s.outlets := rfl
@[simp] theorem State.countDevice_aa (s : State) (c : DeviceCount) (n : Nat) : (s.countDevice c n).aa = s.aa := rfl
@[simp] theorem State.countDevice_ilc (s : State) (c : DeviceCount) (n : Nat) : (s.countDevice c n).ilc = s.ilc := rfl
@[simp] theorem State.countDevice_sp (s : State) (c : DeviceCount) (n : Nat) : (s.countDevice c n).sp = s.sp := rfl
@[simp] theorem State.countDevice_service (s : State) (c : DeviceCount) (n : Nat) : (s.countDevice c n).service = s.service := rfl
@[simp] theorem State.countDevice_pins (s : State) (c : DeviceCount) (n : Nat) : (s.countDevice c n).pins = s.pins := rfl
@[simp] theorem State.countDevice_due (s : State) (c : DeviceCount) (n : Nat) : (s.countDevice c n).due = s.due := rfl
@[simp] theorem State.countDevice_freeNext (s : State) (c : DeviceCount) (n : Nat) : (s.countDevice c n).freeNext = s.freeNext := rfl
@[simp] theorem State.countDevice_pending (s : State) (c : DeviceCount) (n : Nat) : (s.countDevice c n).pending = s.pending := rfl

@[simp] theorem State.countKey_tau_outlets (s : State) (k : KeyNo) (c : KeyCount) : (s.countKey k c).tau.outlets = s.tau.outlets := rfl
@[simp] theorem State.countKey_tau_device (s : State) (k : KeyNo) (c : KeyCount) : (s.countKey k c).tau.device = s.tau.device := rfl
@[simp] theorem State.countKey_tau_latches (s : State) (k : KeyNo) (c : KeyCount) : (s.countKey k c).tau.latches = s.tau.latches := rfl
@[simp] theorem State.countKey_tau_enables (s : State) (k : KeyNo) (c : KeyCount) : (s.countKey k c).tau.enables = s.tau.enables := rfl
@[simp] theorem State.countKey_tau_lineMap (s : State) (k : KeyNo) (c : KeyCount) : (s.countKey k c).tau.lineMap = s.tau.lineMap := rfl
@[simp] theorem State.countOutlet_tau_keys (s : State) (o : OutletNo) (c : OutletCount) (n : Nat) : (s.countOutlet o c n).tau.keys = s.tau.keys := rfl
@[simp] theorem State.countOutlet_tau_device (s : State) (o : OutletNo) (c : OutletCount) (n : Nat) : (s.countOutlet o c n).tau.device = s.tau.device := rfl
@[simp] theorem State.countOutlet_tau_latches (s : State) (o : OutletNo) (c : OutletCount) (n : Nat) : (s.countOutlet o c n).tau.latches = s.tau.latches := rfl
@[simp] theorem State.countOutlet_tau_enables (s : State) (o : OutletNo) (c : OutletCount) (n : Nat) : (s.countOutlet o c n).tau.enables = s.tau.enables := rfl
@[simp] theorem State.countOutlet_tau_lineMap (s : State) (o : OutletNo) (c : OutletCount) (n : Nat) : (s.countOutlet o c n).tau.lineMap = s.tau.lineMap := rfl
@[simp] theorem State.countDevice_tau_keys (s : State) (c : DeviceCount) (n : Nat) : (s.countDevice c n).tau.keys = s.tau.keys := rfl
@[simp] theorem State.countDevice_tau_outlets (s : State) (c : DeviceCount) (n : Nat) : (s.countDevice c n).tau.outlets = s.tau.outlets := rfl
@[simp] theorem State.countDevice_tau_latches (s : State) (c : DeviceCount) (n : Nat) : (s.countDevice c n).tau.latches = s.tau.latches := rfl
@[simp] theorem State.countDevice_tau_enables (s : State) (c : DeviceCount) (n : Nat) : (s.countDevice c n).tau.enables = s.tau.enables := rfl
@[simp] theorem State.countDevice_tau_lineMap (s : State) (c : DeviceCount) (n : Nat) : (s.countDevice c n).tau.lineMap = s.tau.lineMap := rfl

/-! ### Records -/

@[simp] theorem State.setRecords_params (s : State) (rs : List Record) : (s.setRecords rs).params = s.params := rfl
@[simp] theorem State.setRecords_time (s : State) (rs : List Record) : (s.setRecords rs).time = s.time := rfl
@[simp] theorem State.setRecords_bpu (s : State) (rs : List Record) : (s.setRecords rs).bpu = s.bpu := rfl
@[simp] theorem State.setRecords_rd (s : State) (rs : List Record) : (s.setRecords rs).rd = s.rd := rfl
@[simp] theorem State.setRecords_oc (s : State) (rs : List Record) : (s.setRecords rs).oc = s.oc := rfl
@[simp] theorem State.setRecords_outlets (s : State) (rs : List Record) : (s.setRecords rs).outlets = s.outlets := rfl
@[simp] theorem State.setRecords_aa (s : State) (rs : List Record) : (s.setRecords rs).aa = s.aa := rfl
@[simp] theorem State.setRecords_ilc (s : State) (rs : List Record) : (s.setRecords rs).ilc = s.ilc := rfl
@[simp] theorem State.setRecords_sp (s : State) (rs : List Record) : (s.setRecords rs).sp = s.sp := rfl
@[simp] theorem State.setRecords_service (s : State) (rs : List Record) : (s.setRecords rs).service = s.service := rfl
@[simp] theorem State.setRecords_tau (s : State) (rs : List Record) : (s.setRecords rs).tau = s.tau := rfl
@[simp] theorem State.setRecords_pins (s : State) (rs : List Record) : (s.setRecords rs).pins = s.pins := rfl
@[simp] theorem State.setRecords_due (s : State) (rs : List Record) : (s.setRecords rs).due = s.due := rfl
@[simp] theorem State.setRecords_freeNext (s : State) (rs : List Record) : (s.setRecords rs).freeNext = s.freeNext := rfl
@[simp] theorem State.setRecords_pending (s : State) (rs : List Record) : (s.setRecords rs).pending = s.pending := rfl

@[simp] theorem State.setRecords_records (s : State) (rs : List Record) : (s.setRecords rs).tc.records = rs := rfl
@[simp] theorem State.setRecords_gens (s : State) (rs : List Record) : (s.setRecords rs).tc.gens = s.tc.gens := rfl

@[simp] theorem State.mapRecords_params (s : State) (p : Record → Bool) (f : Record → Record) : (s.mapRecords p f).params = s.params := rfl
@[simp] theorem State.mapRecords_time (s : State) (p : Record → Bool) (f : Record → Record) : (s.mapRecords p f).time = s.time := rfl
@[simp] theorem State.mapRecords_bpu (s : State) (p : Record → Bool) (f : Record → Record) : (s.mapRecords p f).bpu = s.bpu := rfl
@[simp] theorem State.mapRecords_rd (s : State) (p : Record → Bool) (f : Record → Record) : (s.mapRecords p f).rd = s.rd := rfl
@[simp] theorem State.mapRecords_oc (s : State) (p : Record → Bool) (f : Record → Record) : (s.mapRecords p f).oc = s.oc := rfl
@[simp] theorem State.mapRecords_outlets (s : State) (p : Record → Bool) (f : Record → Record) : (s.mapRecords p f).outlets = s.outlets := rfl
@[simp] theorem State.mapRecords_aa (s : State) (p : Record → Bool) (f : Record → Record) : (s.mapRecords p f).aa = s.aa := rfl
@[simp] theorem State.mapRecords_ilc (s : State) (p : Record → Bool) (f : Record → Record) : (s.mapRecords p f).ilc = s.ilc := rfl
@[simp] theorem State.mapRecords_sp (s : State) (p : Record → Bool) (f : Record → Record) : (s.mapRecords p f).sp = s.sp := rfl
@[simp] theorem State.mapRecords_service (s : State) (p : Record → Bool) (f : Record → Record) : (s.mapRecords p f).service = s.service := rfl
@[simp] theorem State.mapRecords_tau (s : State) (p : Record → Bool) (f : Record → Record) : (s.mapRecords p f).tau = s.tau := rfl
@[simp] theorem State.mapRecords_pins (s : State) (p : Record → Bool) (f : Record → Record) : (s.mapRecords p f).pins = s.pins := rfl
@[simp] theorem State.mapRecords_due (s : State) (p : Record → Bool) (f : Record → Record) : (s.mapRecords p f).due = s.due := rfl
@[simp] theorem State.mapRecords_freeNext (s : State) (p : Record → Bool) (f : Record → Record) : (s.mapRecords p f).freeNext = s.freeNext := rfl
@[simp] theorem State.mapRecords_pending (s : State) (p : Record → Bool) (f : Record → Record) : (s.mapRecords p f).pending = s.pending := rfl

@[simp] theorem State.mapRecords_records (s : State) (p : Record → Bool) (f : Record → Record) :
    (s.mapRecords p f).tc.records = s.tc.records.map (fun r => if p r then f r else r) := rfl
@[simp] theorem State.mapRecords_gens (s : State) (p : Record → Bool) (f : Record → Record) : (s.mapRecords p f).tc.gens = s.tc.gens := rfl

/-! ### The outlets are one field -/

theorem State.outlet_congr {s t : State} (h : t.outlets = s.outlets) (o : OutletNo) : t.outlet o = s.outlet o := by simp [State.outlet, h]

@[simp] theorem State.outlet_raise (s : State) (c : Source) (o : OutletNo) : (s.raise c).outlet o = s.outlet o := State.outlet_congr (by simp) o
@[simp] theorem State.outlet_raiseIf (s : State) (b : Bool) (c : Source) (o : OutletNo) : (s.raiseIf b c).outlet o = s.outlet o := State.outlet_congr (by simp) o
@[simp] theorem State.outlet_countKey (s : State) (k : KeyNo) (c : KeyCount) (o : OutletNo) : (s.countKey k c).outlet o = s.outlet o := State.outlet_congr (by simp) o
@[simp] theorem State.outlet_countOutlet (s : State) (i : OutletNo) (c : OutletCount) (n : Nat) (o : OutletNo) : (s.countOutlet i c n).outlet o = s.outlet o := State.outlet_congr (by simp) o
@[simp] theorem State.outlet_countDevice (s : State) (c : DeviceCount) (n : Nat) (o : OutletNo) : (s.countDevice c n).outlet o = s.outlet o := State.outlet_congr (by simp) o
@[simp] theorem State.outlet_setRecords (s : State) (rs : List Record) (o : OutletNo) : (s.setRecords rs).outlet o = s.outlet o := State.outlet_congr (by simp) o
@[simp] theorem State.outlet_mapRecords (s : State) (p : Record → Bool) (f : Record → Record) (o : OutletNo) : (s.mapRecords p f).outlet o = s.outlet o := State.outlet_congr (by simp) o

/-! ### Events and responses -/

@[simp] theorem State.dropDue_params (s : State) (e : Event) : (s.dropDue e).params = s.params := rfl
@[simp] theorem State.dropDue_time (s : State) (e : Event) : (s.dropDue e).time = s.time := rfl
@[simp] theorem State.dropDue_bpu (s : State) (e : Event) : (s.dropDue e).bpu = s.bpu := rfl
@[simp] theorem State.dropDue_tc (s : State) (e : Event) : (s.dropDue e).tc = s.tc := rfl
@[simp] theorem State.dropDue_rd (s : State) (e : Event) : (s.dropDue e).rd = s.rd := rfl
@[simp] theorem State.dropDue_oc (s : State) (e : Event) : (s.dropDue e).oc = s.oc := rfl
@[simp] theorem State.dropDue_outlets (s : State) (e : Event) : (s.dropDue e).outlets = s.outlets := rfl
@[simp] theorem State.dropDue_aa (s : State) (e : Event) : (s.dropDue e).aa = s.aa := rfl
@[simp] theorem State.dropDue_ilc (s : State) (e : Event) : (s.dropDue e).ilc = s.ilc := rfl
@[simp] theorem State.dropDue_sp (s : State) (e : Event) : (s.dropDue e).sp = s.sp := rfl
@[simp] theorem State.dropDue_service (s : State) (e : Event) : (s.dropDue e).service = s.service := rfl
@[simp] theorem State.dropDue_tau (s : State) (e : Event) : (s.dropDue e).tau = s.tau := rfl
@[simp] theorem State.dropDue_pins (s : State) (e : Event) : (s.dropDue e).pins = s.pins := rfl
@[simp] theorem State.dropDue_freeNext (s : State) (e : Event) : (s.dropDue e).freeNext = s.freeNext := rfl
@[simp] theorem State.dropDue_pending (s : State) (e : Event) : (s.dropDue e).pending = s.pending := rfl

@[simp] theorem State.respond_params (s : State) (fr : List Byte) (r : Response) : (s.respond fr r).params = s.params := rfl
@[simp] theorem State.respond_time (s : State) (fr : List Byte) (r : Response) : (s.respond fr r).time = s.time := rfl
@[simp] theorem State.respond_bpu (s : State) (fr : List Byte) (r : Response) : (s.respond fr r).bpu = s.bpu := rfl
@[simp] theorem State.respond_tc (s : State) (fr : List Byte) (r : Response) : (s.respond fr r).tc = s.tc := rfl
@[simp] theorem State.respond_rd (s : State) (fr : List Byte) (r : Response) : (s.respond fr r).rd = s.rd := rfl
@[simp] theorem State.respond_oc (s : State) (fr : List Byte) (r : Response) : (s.respond fr r).oc = s.oc := rfl
@[simp] theorem State.respond_outlets (s : State) (fr : List Byte) (r : Response) : (s.respond fr r).outlets = s.outlets := rfl
@[simp] theorem State.respond_aa (s : State) (fr : List Byte) (r : Response) : (s.respond fr r).aa = s.aa := rfl
@[simp] theorem State.respond_ilc (s : State) (fr : List Byte) (r : Response) : (s.respond fr r).ilc = s.ilc := rfl
@[simp] theorem State.respond_service (s : State) (fr : List Byte) (r : Response) : (s.respond fr r).service = s.service := rfl
@[simp] theorem State.respond_tau (s : State) (fr : List Byte) (r : Response) : (s.respond fr r).tau = s.tau := rfl
@[simp] theorem State.respond_pins (s : State) (fr : List Byte) (r : Response) : (s.respond fr r).pins = s.pins := rfl
@[simp] theorem State.respond_due (s : State) (fr : List Byte) (r : Response) : (s.respond fr r).due = s.due := rfl
@[simp] theorem State.respond_freeNext (s : State) (fr : List Byte) (r : Response) : (s.respond fr r).freeNext = s.freeNext := rfl
@[simp] theorem State.respond_pending (s : State) (fr : List Byte) (r : Response) : (s.respond fr r).pending = s.pending := rfl

@[simp] theorem State.outlet_dropDue (s : State) (e : Event) (o : OutletNo) : (s.dropDue e).outlet o = s.outlet o := rfl
@[simp] theorem State.outlet_respond (s : State) (fr : List Byte) (r : Response) (o : OutletNo) : (s.respond fr r).outlet o = s.outlet o := rfl

/-! ### The receive line -/

@[simp] theorem State.setRx_params (s : State) (rx : RxLine) : (s.setRx rx).params = s.params := rfl
@[simp] theorem State.setRx_time (s : State) (rx : RxLine) : (s.setRx rx).time = s.time := rfl
@[simp] theorem State.setRx_bpu (s : State) (rx : RxLine) : (s.setRx rx).bpu = s.bpu := rfl
@[simp] theorem State.setRx_tc (s : State) (rx : RxLine) : (s.setRx rx).tc = s.tc := rfl
@[simp] theorem State.setRx_rd (s : State) (rx : RxLine) : (s.setRx rx).rd = s.rd := rfl
@[simp] theorem State.setRx_oc (s : State) (rx : RxLine) : (s.setRx rx).oc = s.oc := rfl
@[simp] theorem State.setRx_outlets (s : State) (rx : RxLine) : (s.setRx rx).outlets = s.outlets := rfl
@[simp] theorem State.setRx_aa (s : State) (rx : RxLine) : (s.setRx rx).aa = s.aa := rfl
@[simp] theorem State.setRx_sp (s : State) (rx : RxLine) : (s.setRx rx).sp = s.sp := rfl
@[simp] theorem State.setRx_service (s : State) (rx : RxLine) : (s.setRx rx).service = s.service := rfl
@[simp] theorem State.setRx_tau (s : State) (rx : RxLine) : (s.setRx rx).tau = s.tau := rfl
@[simp] theorem State.setRx_pins (s : State) (rx : RxLine) : (s.setRx rx).pins = s.pins := rfl
@[simp] theorem State.setRx_due (s : State) (rx : RxLine) : (s.setRx rx).due = s.due := rfl
@[simp] theorem State.setRx_freeNext (s : State) (rx : RxLine) : (s.setRx rx).freeNext = s.freeNext := rfl
@[simp] theorem State.setRx_pending (s : State) (rx : RxLine) : (s.setRx rx).pending = s.pending := rfl

@[simp] theorem State.setRx_ilc_link (s : State) (rx : RxLine) : (s.setRx rx).ilc.link = s.ilc.link := rfl
@[simp] theorem State.setRx_ilc_assembler (s : State) (rx : RxLine) : (s.setRx rx).ilc.assembler = s.ilc.assembler := rfl
@[simp] theorem State.setRx_ilc_badRun (s : State) (rx : RxLine) : (s.setRx rx).ilc.badRun = s.ilc.badRun := rfl
@[simp] theorem State.setRx_ilc_silence (s : State) (rx : RxLine) : (s.setRx rx).ilc.silence = s.ilc.silence := rfl
@[simp] theorem State.setRx_ilc_syncTimer (s : State) (rx : RxLine) : (s.setRx rx).ilc.syncTimer = s.ilc.syncTimer := rfl
@[simp] theorem State.setRx_ilc_syncFrames (s : State) (rx : RxLine) : (s.setRx rx).ilc.syncFrames = s.ilc.syncFrames := rfl
@[simp] theorem State.setRx_ilc_beaconTimer (s : State) (rx : RxLine) : (s.setRx rx).ilc.beaconTimer = s.ilc.beaconTimer := rfl
@[simp] theorem State.setRx_ilc_tx (s : State) (rx : RxLine) : (s.setRx rx).ilc.tx = s.ilc.tx := rfl
@[simp] theorem State.setRx_ilc_e (s : State) (rx : RxLine) : (s.setRx rx).ilc.e = s.ilc.e := rfl
@[simp] theorem State.setRx_ilc_l (s : State) (rx : RxLine) : (s.setRx rx).ilc.l = s.ilc.l := rfl
@[simp] theorem State.setRx_ilc_rx (s : State) (rx : RxLine) : (s.setRx rx).ilc.rx = rx := rfl
@[simp] theorem State.outlet_setRx (s : State) (rx : RxLine) (o : OutletNo) : (s.setRx rx).outlet o = s.outlet o := rfl

end Sys2Proof.Machine
end

