-- ==== Sys2Proof/Laws/Books.lean ====
section
/-! SUPPORT. The books of a state decided by evaluation, for the witnesses of the statements; what a walk of the route table does, in the terms of the statements; and what
a whole byte on the receive line brings. -/

namespace Sys2Proof.Machine

/-! ### The books by evaluation -/

/-- Tags that are, in some order and each once, those of some records. -/
def sameTags (ts : List Tag) (rs : List Record) : Bool := decide ts.Nodup && ts.all (fun t => rs.any (fun r => r.tag == t)) && rs.all (fun r => ts.contains r.tag)

/-- The live records in a state at an outlet. -/
def State.recordsAt (s : State) (st : RecordState) (o : OutletNo) : List Record := s.tc.records.filter (fun r => decide (r.isAt st o))

/-- A record's cluster field against the table. -/
def State.clusterCheck (s : State) (r : Record) : Bool :=
  match r.cluster with
  | none => true
  | some (.member t) => s.tc.records.any (fun l => l.tag == t && (match l.cluster with | some (.leader _) => true | _ => false) && l.state == r.state
      && decide (l.route.map (fun x => (x.outlet, x.firePoint)) = r.route.map (fun x => (x.outlet, x.firePoint))))
  | some (.leader n) => n == (s.membersOf r.tag).length && decide (2 ≤ n ∧ n ≤ 8)

/-- An outlet's held set and waiting request against the table. -/
def State.outletCheck (s : State) (o : OutletNo) : Bool :=
  decide ((s.outlet o).committed = s.unitsAt o (fun _ => true))
  && (match (s.outlet o).strokeSet with
    | none => s.recordsAt .fired o == []
    | some set => sameTags set.members (s.recordsAt .fired o) && set.units == s.unitsAt o (fun r => r.state == .fired))
  && (match (s.outlet o).request with
    | some (.deadline ms _ units) => sameTags ms (s.recordsAt .due o) && units == s.unitsAt o (fun r => r.state == .due)
        && (s.recordsAt .due o).all (fun r => (s.recordsAt .due o).all (fun q => r.leaderTag == q.leaderTag))
    | _ => s.recordsAt .due o == [])

/-- Every clause of the books, evaluated. -/
def State.booksCheck (s : State) : Bool :=
  decide s.tableLaw
  && s.tc.records.all (fun r => decide (r.route ≠ none ↔ r.state = .routed ∨ r.state = .due ∨ r.state = .fired)
    && decide ((r.carry ≠ none ↔ r.state = .carried) ∧ (r.state = .carried → r.cluster = none)) && s.clusterCheck r)
  && outletNos.all s.outletCheck

theorem mem_recordsAt {s : State} {st : RecordState} {o : OutletNo} {r : Record} : r ∈ s.recordsAt st o ↔ r ∈ s.tc.records ∧ r.isAt st o := by
  simp [State.recordsAt]

theorem sameTags_iff {s : State} {st : RecordState} {o : OutletNo} {ts : List Tag} (h : sameTags ts (s.recordsAt st o) = true) :
    ts.Nodup ∧ ∀ t, t ∈ ts ↔ ∃ r ∈ s.tc.records, r.tag = t ∧ r.isAt st o := by
  simp only [sameTags, Bool.and_eq_true, decide_eq_true_eq, List.all_eq_true, List.any_eq_true, beq_iff_eq, List.contains_iff_mem, mem_recordsAt] at h
  obtain ⟨⟨hn, hs⟩, hr⟩ := h
  refine ⟨hn, fun t => ⟨fun ht => ?_, ?_⟩⟩
  · obtain ⟨r, ⟨hm, ha⟩, rfl⟩ := hs t ht
    exact ⟨r, hm, rfl, ha⟩
  · rintro ⟨r, hm, rfl, ha⟩
    exact hr r ⟨hm, ha⟩

theorem recordsAt_eq_nil {s : State} {st : RecordState} {o : OutletNo} (h : (s.recordsAt st o == []) = true) : ∀ r ∈ s.tc.records, ¬r.isAt st o := by
  rw [beq_iff_eq] at h
  intro r hm ha
  simpa [h] using (mem_recordsAt (s := s)).mpr ⟨hm, ha⟩

/-- A state whose books the evaluation finds right has them right. -/
theorem State.booksLaw_of_check {s : State} (h : s.booksCheck = true) : s.booksLaw := by
  simp only [State.booksCheck, Bool.and_eq_true, List.all_eq_true, decide_eq_true_eq] at h
  obtain ⟨⟨hs, hr⟩, ho⟩ := h
  have hout := fun o => ho o (mem_outletNos o)
  simp only [State.outletCheck, Bool.and_eq_true, decide_eq_true_eq] at hout
  refine ⟨hs, fun r m => (hr r m).1.1, fun r m => (hr r m).1.2, ?_, ?_, fun o => (hout o).1.1, ?_, ?_⟩
  · intro r m t ht
    have hc := (hr r m).2
    simp only [State.clusterCheck, ht, List.any_eq_true, Bool.and_eq_true, beq_iff_eq, decide_eq_true_eq] at hc
    obtain ⟨l, hl, ⟨⟨hlt, hlead⟩, hst⟩, hroute⟩ := hc
    refine ⟨l, hl, hlt, ?_, hst, hroute⟩
    split at hlead
    · exact ⟨_, by assumption⟩
    · cases hlead
  · intro r m n hn
    have hc := (hr r m).2
    simp only [State.clusterCheck, hn, Bool.and_eq_true, beq_iff_eq, decide_eq_true_eq] at hc
    exact ⟨hc.1, hc.2⟩
  · intro o
    have h := (hout o).1.2
    generalize (s.outlet o).strokeSet = held at h ⊢
    cases held with
    | none => exact recordsAt_eq_nil h
    | some set =>
      simp only [Bool.and_eq_true, beq_iff_eq] at h
      exact ⟨(sameTags_iff h.1).1, (sameTags_iff h.1).2, h.2⟩
  · intro o
    have h := (hout o).2
    generalize (s.outlet o).request = waiting at h ⊢
    cases waiting with
    | none => exact recordsAt_eq_nil h
    | some request =>
      cases request with
      | test => exact recordsAt_eq_nil h
      | deadline ms late units =>
        simp only [Bool.and_eq_true, beq_iff_eq, List.all_eq_true, mem_recordsAt] at h
        exact ⟨(sameTags_iff h.1.1).1, (sameTags_iff h.1.1).2, h.1.2, fun r hr q hq har haq => h.2 r ⟨hr, har⟩ q ⟨hq, haq⟩⟩

/-! ### Walks -/

/-- Every walk of the model is a walk in the terms of the statements. -/
theorem State.walkFrom_walks (s : State) (s0 : Pos) (ms : List Record) : ∀ (fuel n : Nat) (i : RouteIx) (jumped : Bool) (last : Option RefusalReason), n + fuel = 16 →
    RouteWalk s s0 ms n i jumped last (s.walkFrom s0 ms fuel i jumped last).1 (s.walkFrom s0 ms fuel i jumped last).2 := by
  intro fuel
  induction fuel with
  | zero =>
    rintro n i jumped last rfl
    exact .limit
  | succ fuel ih =>
    intro n i jumped last hn
    have hlt : n < 16 := by omega
    have step : ∀ i' jumped' last', RouteWalk s s0 ms (n + 1) i' jumped' last' (s.walkFrom s0 ms fuel i' jumped' last').1 (s.walkFrom s0 ms fuel i' jumped' last').2 :=
      fun i' jumped' last' => ih (n + 1) i' jumped' last' (by omega)
    unfold State.walkFrom
    split
    · exact .chainEnd hlt (by assumption)
    · split
      · subst_vars
        exact .doubleJump hlt (by assumption)
      · rename_i hj
        rw [Bool.not_eq_true] at hj
        subst hj
        exact .jumps hlt (by assumption) (step ..)
    · split
      · exact .accepts hlt (by assumption) (by assumption)
      · split
        · rename_i he hc
          simp only [Bool.not_eq_true'] at hc
          subst hc
          exact .refuses hlt (by assumption) he
        · rename_i he hc
          simp only [Bool.not_eq_true', Bool.not_eq_false] at hc
          subst hc
          split
          · subst_vars
            exact .pastEnd hlt (by assumption) he
          · exact .passesOn hlt (by assumption) (by assumption) he (step ..)

/-- A walk ends in one way alone. -/
theorem RouteWalk.unique {s : State} {s0 : Pos} {ms : List Record} {n : Nat} {i : RouteIx} {jumped : Bool} {last : Option RefusalReason} {r r' : WalkEnd}
    {e e' : Option RefusalReason} (h : RouteWalk s s0 ms n i jumped last r e) (h' : RouteWalk s s0 ms n i jumped last r' e') : r = r' ∧ e = e' := by
  induction h generalizing r' e' with
  | limit => cases h' <;> first | exact ⟨rfl, rfl⟩ | omega
  | chainEnd => cases h' <;> simp_all
  | accepts => cases h' <;> simp_all
  | refuses => cases h' <;> simp_all
  | pastEnd => cases h' <;> simp_all
  | passesOn _ _ _ _ _ ih => cases h' <;> simp_all; exact ih ‹_›
  | doubleJump => cases h' <;> simp_all
  | jumps _ _ _ ih => cases h' <;> simp_all; exact ih ‹_›

/-! ### The receive line -/

/-- The data bits of a byte are its own (R134). -/
theorem byteOfBits_bits (b : Byte) :
    byteOfBits [b.getLsbD 0, b.getLsbD 1, b.getLsbD 2, b.getLsbD 3, b.getLsbD 4, b.getLsbD 5, b.getLsbD 6, b.getLsbD 7] = b := by
  revert b
  decide +kernel

/-- The bit times of a whole byte on an idle line bring that byte to the frame assembler (R134). -/
theorem State.takeLevels_byteLevels (s : State) (b : Byte) (h : s.ilc.rx = .idle) : s.takeLevels (byteLevels b) = s.takeByte b := by
  have hb := byteOfBits_bits b
  simp at hb
  simp [byteLevels, byteBits, State.takeLevels, RxLine.take, h, State.setRx, hb]
  simp [← h]

end Sys2Proof.Machine
end

