-- ==== Sys2Proof/Laws/Work.lean ====
section
/-! SUPPORT. What the work on records and outlets can do (`Work`): the relation that every release, retirement, carry, walk, re-route, grant
and stroke keeps, said once, so that a proof about a step cites it in place of unfolding it. -/

namespace Sys2Proof.Machine

/-! ### The parts of the relation -/

/-- A live record after some work and the record it was: its name, number, stamp and length are fixed, a flag once set stays set, and class and key
change by amendment alone (R26, R27). -/
structure Heir (new old : Record) : Prop where
  slot : new.slot = old.slot
  gen : new.gen = old.gen
  number : new.number = old.number
  stamp : new.stamp = old.stamp
  length : new.length = old.length
  stampClamped : new.flags.stampClamped = old.flags.stampClamped
  audit : old.flags.audit = true → new.flags.audit = true
  amended : old.flags.amended = true → new.flags.amended = true
  rerouted : old.flags.rerouted = true → new.flags.rerouted = true
  owner : new.cls = old.cls ∧ new.key = old.key ∨ new.flags.amended = true

theorem Heir.refl (r : Record) : Heir r r := ⟨rfl, rfl, rfl, rfl, rfl, rfl, id, id, id, .inl ⟨rfl, rfl⟩⟩

theorem Heir.trans {a b c : Record} (h : Heir a b) (k : Heir b c) : Heir a c where
  slot := h.slot.trans k.slot
  gen := h.gen.trans k.gen
  number := h.number.trans k.number
  stamp := h.stamp.trans k.stamp
  length := h.length.trans k.length
  stampClamped := h.stampClamped.trans k.stampClamped
  audit := h.audit ∘ k.audit
  amended := h.amended ∘ k.amended
  rerouted := h.rerouted ∘ k.rerouted
  owner := by
    obtain ⟨h1, h2⟩ | h1 := h.owner
    · obtain ⟨k1, k2⟩ | k1 := k.owner
      · exact .inl ⟨h1.trans k1, h2.trans k2⟩
      · exact .inr (h.amended k1)
    · exact .inr h1

/-- The live records after some work: those that are left, each the heir of the one it was, in the same order. -/
abbrev Inherits (new old : List Record) : Prop := List.SublistForall₂ Heir new old

theorem Inherits.refl (rs : List Record) : Inherits rs rs :=
  (List.sublistForall₂_iff).mpr ⟨rs, List.forall₂_same.mpr fun r _ => Heir.refl r, List.Sublist.refl rs⟩

theorem Inherits.of_sublist {xs ys : List Record} (h : xs.Sublist ys) : Inherits xs ys :=
  (List.sublistForall₂_iff).mpr ⟨xs, List.forall₂_same.mpr fun r _ => Heir.refl r, h⟩

theorem Inherits.of_map {rs : List Record} {f : Record → Record} (h : ∀ r ∈ rs, Heir (f r) r) : Inherits (rs.map f) rs := by
  refine (List.sublistForall₂_iff).mpr ⟨rs, ?_, List.Sublist.refl rs⟩
  induction rs with
  | nil => exact .nil
  | cons a l ih => exact .cons (h a (by simp)) (ih fun r hr => h r (by simp [hr]))

theorem Inherits.trans {xs ys zs : List Record} (h : Inherits xs ys) (k : Inherits ys zs) : Inherits xs zs := by
  obtain ⟨l, hl, hs⟩ := (List.sublistForall₂_iff).mp h
  obtain ⟨m, hm, ht⟩ := (List.sublistForall₂_iff).mp k
  obtain ⟨n, hn, hnm⟩ : ∃ n, List.Forall₂ Heir l n ∧ n.Sublist m := by
    clear hl h k ht
    induction hm generalizing l with
    | nil => exact ⟨[], by simpa using hs, .slnil⟩
    | @cons a b as bs hab _ ih =>
      cases hs with
      | cons _ hs =>
        obtain ⟨n, h1, h2⟩ := ih _ hs
        exact ⟨n, h1, h2.cons _⟩
      | cons_cons _ hs =>
        obtain ⟨n, h1, h2⟩ := ih _ hs
        exact ⟨b :: n, .cons hab h1, h2.cons_cons _⟩
  refine (List.sublistForall₂_iff).mpr ⟨n, ?_, hnm.trans ht⟩
  clear hs hnm h k ht hm
  induction hl generalizing n with
  | nil => cases hn; exact .nil
  | cons hab _ ih =>
    cases hn with
    | cons hbc hn => exact .cons (hab.trans hbc) (ih _ hn)

theorem Inherits.slots {xs ys : List Record} (h : Inherits xs ys) : (xs.map (fun r => r.slot)).Sublist (ys.map (fun r => r.slot)) := by
  obtain ⟨l, hl, hs⟩ := (List.sublistForall₂_iff).mp h
  have : xs.map (fun r => r.slot) = l.map (fun r => r.slot) := by
    clear hs h
    induction hl with
    | nil => rfl
    | cons hab _ ih => simp [hab.slot, ih]
  rw [this]
  exact hs.map _

theorem Inherits.length_le {xs ys : List Record} (h : Inherits xs ys) : xs.length ≤ ys.length := by
  simpa using h.slots.length_le

theorem Inherits.nil {xs : List Record} (h : Inherits xs []) : xs = [] := List.length_eq_zero_iff.mp (Nat.le_zero.mp h.length_le)

theorem Inherits.heir {xs ys : List Record} (h : Inherits xs ys) {r : Record} (hr : r ∈ xs) : ∃ q ∈ ys, Heir r q := by
  obtain ⟨l, hl, hs⟩ := (List.sublistForall₂_iff).mp h
  obtain ⟨i, hi, rfl⟩ := List.getElem_of_mem hr
  have hi' : i < l.length := hl.length_eq ▸ hi
  exact ⟨l[i], hs.subset (List.getElem_mem _), (List.forall₂_iff_get.mp hl).2 i hi hi'⟩

/-- What work leaves of an outlet: its fields, enable, rack key, chute, line filters and timers, but for the stroke and confirm timers. -/
structure OutletKept (new old : Outlet) : Prop where
  fields : new.fields = old.fields
  enabled : new.enabled = old.enabled
  rackKey : new.rackKey = old.rackKey
  blocked : new.blocked = old.blocked
  rackFilter : new.rackFilter = old.rackFilter
  eyeFilter : new.eyeFilter = old.eyeFilter
  blockTimer : new.blockTimer = old.blockTimer
  clearTimer : new.clearTimer = old.clearTimer
  buttonFilter : new.buttonFilter = old.buttonFilter
  homeFilter : new.homeFilter = old.homeFilter
  recoverTimer : new.recoverTimer = old.recoverTimer
  recoverFigure : new.recoverFigure = old.recoverFigure
  homeFigure : new.homeFigure = old.homeFigure
  missRun : old.missRun ≤ 15 → new.missRun ≤ 15

theorem OutletKept.refl (x : Outlet) : OutletKept x x := ⟨rfl, rfl, rfl, rfl, rfl, rfl, rfl, rfl, rfl, rfl, rfl, rfl, rfl, id⟩

theorem OutletKept.trans {a b c : Outlet} (h : OutletKept a b) (k : OutletKept b c) : OutletKept a c :=
  ⟨h.1.trans k.1, h.2.trans k.2, h.3.trans k.3, h.4.trans k.4, h.5.trans k.5, h.6.trans k.6, h.7.trans k.7, h.8.trans k.8, h.9.trans k.9,
    h.10.trans k.10, h.11.trans k.11, h.12.trans k.12, h.13.trans k.13, h.14 ∘ k.14⟩

/-! ### Tallies -/

theorem bump_le (n t : Nat) (h : t ≤ 16777215) : t ≤ bump n t ∧ bump n t ≤ 16777215 := by simp only [bump]; omega

/-- Tallies after some work: within their bounds when they were, and then none lower; the enables and the line map stand, and latches are only set. -/
structure TauGrows (new old : Tau) : Prop where
  bounded : old.bounded → new.bounded
  le : old.bounded → old.le new
  enables : new.enables = old.enables
  lineMap : new.lineMap = old.lineMap
  latches : ∃ m, new.latches = old.latches ||| m

theorem KeyTally.le_refl (t : KeyTally) : t.le t := by simp only [KeyTally.le]; omega

theorem OutletTally.le_refl (t : OutletTally) : t.le t := by simp only [OutletTally.le]; omega

theorem DeviceTally.le_refl (t : DeviceTally) : t.le t := by simp only [DeviceTally.le]; omega

theorem Tau.le_refl (t : Tau) : t.le t := ⟨fun _ => KeyTally.le_refl _, fun _ => OutletTally.le_refl _, DeviceTally.le_refl _⟩

theorem Tau.le_trans {a b c : Tau} (h : a.le b) (k : b.le c) : a.le c := by
  obtain ⟨h1, h2, h3⟩ := h
  obtain ⟨k1, k2, k3⟩ := k
  refine ⟨fun i => ?_, fun i => ?_, ?_⟩
  · have := h1 i; have := k1 i; simp only [KeyTally.le] at *; omega
  · have := h2 i; have := k2 i; simp only [OutletTally.le] at *; omega
  · simp only [DeviceTally.le] at *; omega

theorem TauGrows.refl (t : Tau) : TauGrows t t := ⟨id, fun _ => Tau.le_refl t, rfl, rfl, ⟨0, by simp⟩⟩

theorem TauGrows.trans {a b c : Tau} (h : TauGrows a b) (k : TauGrows b c) : TauGrows a c where
  bounded := h.bounded ∘ k.bounded
  le hc := Tau.le_trans (k.le hc) (h.le (k.bounded hc))
  enables := h.enables.trans k.enables
  lineMap := h.lineMap.trans k.lineMap
  latches := by
    obtain ⟨m, hm⟩ := h.latches
    obtain ⟨n, hn⟩ := k.latches
    exact ⟨n ||| m, by rw [hm, hn, BitVec.or_assoc]⟩

theorem TauGrows.countKey (s : State) (k : KeyNo) (c : KeyCount) : TauGrows (s.countKey k c).tau s.tau := by
  have key : ∀ t : KeyTally, t.bounded → t.le (t.add 1 c) ∧ (t.add 1 c).bounded := by
    intro t ht
    cases c <;> simp only [KeyTally.add, KeyTally.le, KeyTally.bounded, bump] at * <;> omega
  refine ⟨fun h => ⟨fun i => ?_, h.2⟩, fun h => ⟨fun i => ?_, fun _ => OutletTally.le_refl _, DeviceTally.le_refl _⟩, rfl, rfl, ⟨0, by simp⟩⟩
  · simp only [State.countKey, vget_vset]
    split
    · next e => subst e; exact (key _ (h.1 k)).2
    · exact h.1 i
  · simp only [State.countKey, vget_vset]
    split
    · next e => subst e; exact (key _ (h.1 k)).1
    · exact KeyTally.le_refl _

theorem TauGrows.countOutlet (s : State) (o : OutletNo) (c : OutletCount) (n : Nat) : TauGrows (s.countOutlet o c n).tau s.tau := by
  have key : ∀ t : OutletTally, t.bounded → t.le (t.add n c) ∧ (t.add n c).bounded := by
    intro t ht
    cases c <;> simp only [OutletTally.add, OutletTally.le, OutletTally.bounded, bump] at * <;> omega
  refine ⟨fun h => ⟨h.1, fun i => ?_, h.2.2⟩, fun h => ⟨fun _ => KeyTally.le_refl _, fun i => ?_, DeviceTally.le_refl _⟩, rfl, rfl, ⟨0, by simp⟩⟩
  · simp only [State.countOutlet, vget_vset]
    split
    · next e => subst e; exact (key _ (h.2.1 o)).2
    · exact h.2.1 i
  · simp only [State.countOutlet, vget_vset]
    split
    · next e => subst e; exact (key _ (h.2.1 o)).1
    · exact OutletTally.le_refl _

theorem TauGrows.countDevice (s : State) (c : DeviceCount) (n : Nat) : TauGrows (s.countDevice c n).tau s.tau := by
  have key : ∀ t : DeviceTally, t.bounded → t.le (t.add n c) ∧ (t.add n c).bounded := by
    intro t ht
    cases c <;> simp only [DeviceTally.add, DeviceTally.le, DeviceTally.bounded, bump] at * <;> omega
  refine ⟨fun h => ⟨h.1, h.2.1, ?_⟩, fun h => ⟨fun _ => KeyTally.le_refl _, fun _ => OutletTally.le_refl _, ?_⟩, rfl, rfl, ⟨0, by simp⟩⟩
  · exact (key _ h.2.2).2
  · exact (key _ h.2.2).1

theorem TauGrows.raise (s : State) (c : Source) : TauGrows (s.raise c).tau s.tau :=
  ⟨id, fun _ => Tau.le_refl _, rfl, rfl, ⟨c.bit, rfl⟩⟩

/-! ### The relation -/

/-- What work on records and outlets leaves and what it may do, from `old` to `new`. -/
structure Work (new old : State) : Prop where
  params : new.params = old.params
  time : new.time = old.time
  bpu : new.bpu = old.bpu
  oc : new.oc = old.oc
  sp : new.sp = old.sp
  pins : new.pins = old.pins
  due : new.due = old.due
  freeNext : new.freeNext = old.freeNext
  pending : new.pending = old.pending
  bank0 : new.rd.bank0 = old.rd.bank0
  bank1 : new.rd.bank1 = old.rd.bank1
  active : new.rd.active = old.rd.active
  planValid : new.rd.planValid = old.rd.planValid
  planStatus : old.rd.planStatus.isSome → new.rd.planStatus = old.rd.planStatus
  ilc : new.ilc = { old.ilc with l := new.ilc.l }
  service : new.service = old.service ∧ new.ilc.l = old.ilc.l
    ∨ old.service = .draining ∧ new.service = .standby ∧ new.tc.records = [] ∧ new.ilc.l = new.ilc.e
  tau : TauGrows new.tau old.tau
  records : Inherits new.tc.records old.tc.records
  outlet : ∀ o, OutletKept (new.outlet o) (old.outlet o)
  capacity : old.capacityLaw → new.capacityLaw
  strokes : old.slotLaw → new.slotLaw

theorem Work.refl (s : State) : Work s s where
  params := rfl
  time := rfl
  bpu := rfl
  oc := rfl
  sp := rfl
  pins := rfl
  due := rfl
  freeNext := rfl
  pending := rfl
  bank0 := rfl
  bank1 := rfl
  active := rfl
  planValid := rfl
  planStatus _ := rfl
  ilc := rfl
  service := .inl ⟨rfl, rfl⟩
  tau := .refl _
  records := .refl _
  outlet _ := .refl _
  capacity := id
  strokes := id

theorem Work.trans {a b c : State} (h : Work a b) (k : Work b c) : Work a c where
  params := h.params.trans k.params
  time := h.time.trans k.time
  bpu := h.bpu.trans k.bpu
  oc := h.oc.trans k.oc
  sp := h.sp.trans k.sp
  pins := h.pins.trans k.pins
  due := h.due.trans k.due
  freeNext := h.freeNext.trans k.freeNext
  pending := h.pending.trans k.pending
  bank0 := h.bank0.trans k.bank0
  bank1 := h.bank1.trans k.bank1
  active := h.active.trans k.active
  planValid := h.planValid.trans k.planValid
  planStatus hs := by
    have e := k.planStatus hs
    rw [h.planStatus (by rw [e]; exact hs), e]
  ilc := by rw [h.ilc, k.ilc]
  service := by
    have he : a.ilc.e = b.ilc.e := by rw [h.ilc]
    obtain ⟨h1, h2⟩ | ⟨h1, h2, h3, h4⟩ := h.service <;> obtain ⟨k1, k2⟩ | ⟨k1, k2, k3, k4⟩ := k.service
    · exact .inl ⟨h1.trans k1, h2.trans k2⟩
    · exact .inr ⟨k1, h1.trans k2, Inherits.nil (k3 ▸ h.records), by rw [h2, he, k4]⟩
    · exact .inr ⟨k1 ▸ h1, h2, h3, h4⟩
    · rw [k2] at h1; exact absurd h1 (by decide)
  tau := h.tau.trans k.tau
  records := h.records.trans k.records
  outlet o := (h.outlet o).trans (k.outlet o)
  capacity := h.capacity ∘ k.capacity
  strokes := h.strokes ∘ k.strokes

/-- A chain of work over a list. -/
theorem Work.foldl {α : Type} {f : State → α → State} (hf : ∀ s a, Work (f s a) s) (l : List α) (s : State) : Work (l.foldl f s) s := by
  induction l generalizing s with
  | nil => exact .refl s
  | cons a l ih => exact (ih (f s a)).trans (hf s a)

/-! ### Counting strokes -/

theorem countP_update {α : Type} [DecidableEq α] {p q : α → Bool} {a : α} (hpq : ∀ b, b ≠ a → q b = p b) :
    ∀ l : List α, l.Nodup → a ∈ l → l.countP q + (if p a then 1 else 0) = l.countP p + (if q a then 1 else 0)
  | [], _, h => by simp at h
  | b :: l, hn, h => by
    obtain ⟨hb, hn⟩ := List.nodup_cons.mp hn
    by_cases e : a = b
    · subst e
      have : l.countP q = l.countP p := List.countP_congr fun c hc => by
        rw [hpq c (fun e => hb (e ▸ hc))]
      simp only [List.countP_cons, this]; omega
    · have hl : a ∈ l := by simpa [e] using h
      have := countP_update hpq l hn hl
      have hb := hpq b (Ne.symm e)
      simp only [List.countP_cons, hb]; omega

/-- The strokes counted after one outlet is replaced. -/
theorem State.strokeCount_setOutlet (s : State) (o : OutletNo) (x : Outlet) :
    (s.setOutlet o x).strokeCount + (if (s.outlet o).paddle = .stroke then 1 else 0) = s.strokeCount + (if x.paddle = .stroke then 1 else 0) := by
  have := countP_update (p := fun o => (s.outlet o).paddle == .stroke) (q := fun j => ((s.setOutlet o x).outlet j).paddle == .stroke) (a := o)
    (fun b hb => by simp [State.outlet_setOutlet_ne _ (Ne.symm hb)]) outletNos outletNos_nodup (mem_outletNos o)
  simpa [State.strokeCount] using this

theorem State.strokeCount_congr {s t : State} (h : t.outlets = s.outlets) : t.strokeCount = s.strokeCount := by
  simp only [State.strokeCount, State.outlet_congr h]

theorem State.capacityLaw_congr {s t : State} (h : t.outlets = s.outlets) : t.capacityLaw ↔ s.capacityLaw := by
  simp only [State.capacityLaw, State.outlet_congr h]

/-! ### Work by kind of change -/

/-- A change of one outlet that keeps the capacity law and whether its paddle strokes. -/
theorem Work.setOutlet {s : State} {o : OutletNo} {x : Outlet} (hk : OutletKept x (s.outlet o)) (hc : (s.outlet o).fits → x.fits)
    (hp : x.paddle = .stroke ↔ (s.outlet o).paddle = .stroke) : Work (s.setOutlet o x) s where
  params := rfl
  time := rfl
  bpu := rfl
  oc := rfl
  sp := rfl
  pins := rfl
  due := rfl
  freeNext := rfl
  pending := rfl
  bank0 := rfl
  bank1 := rfl
  active := rfl
  planValid := rfl
  planStatus _ := rfl
  ilc := rfl
  service := .inl ⟨rfl, rfl⟩
  tau := .refl _
  records := .refl _
  outlet j := by
    rw [State.outlet_setOutlet]; split
    · next e => subst e; exact hk
    · exact .refl _
  capacity h j := by
    rw [State.outlet_setOutlet]; split
    · exact hc (h o)
    · exact h j
  strokes h := by
    have := s.strokeCount_setOutlet o x
    simp only [State.slotLaw, State.setOutlet_aa, hp] at *
    omega

theorem Work.modOutlet {s : State} {o : OutletNo} {f : Outlet → Outlet} (hk : ∀ x, OutletKept (f x) x) (hc : ∀ x : Outlet, x.fits → (f x).fits)
    (hp : ∀ x, (f x).paddle = .stroke ↔ x.paddle = .stroke) : Work (s.modOutlet o f) s :=
  .setOutlet (hk _) (hc _) (hp _)

/-- A change of the records that keeps every record that is left the heir of the one it was. -/
theorem Work.setRecords {s : State} {rs : List Record} (h : Inherits rs s.tc.records) : Work (s.setRecords rs) s where
  params := rfl
  time := rfl
  bpu := rfl
  oc := rfl
  sp := rfl
  pins := rfl
  due := rfl
  freeNext := rfl
  pending := rfl
  bank0 := rfl
  bank1 := rfl
  active := rfl
  planValid := rfl
  planStatus _ := rfl
  ilc := rfl
  service := .inl ⟨rfl, rfl⟩
  tau := .refl _
  records := h
  outlet _ := .refl _
  capacity := id
  strokes := id

theorem Work.mapRecords {s : State} {p : Record → Bool} {f : Record → Record} (h : ∀ r ∈ s.tc.records, p r = true → Heir (f r) r) :
    Work (s.mapRecords p f) s :=
  .setRecords (.of_map fun r hr => by
    by_cases hp : p r = true
    · simpa [hp] using h r hr hp
    · simpa [hp] using Heir.refl r)

/-- A change of the tallies and latches alone. -/
theorem Work.setTau {s : State} {t : Tau} (h : TauGrows t s.tau) : Work { s with tau := t } s where
  params := rfl
  time := rfl
  bpu := rfl
  oc := rfl
  sp := rfl
  pins := rfl
  due := rfl
  freeNext := rfl
  pending := rfl
  bank0 := rfl
  bank1 := rfl
  active := rfl
  planValid := rfl
  planStatus _ := rfl
  ilc := rfl
  service := .inl ⟨rfl, rfl⟩
  tau := h
  records := .refl _
  outlet _ := .refl _
  capacity := id
  strokes := id

theorem Work.raise (s : State) (c : Source) : Work (s.raise c) s := .setTau (.raise s c)

theorem Work.raiseIf (s : State) (b : Bool) (c : Source) : Work (s.raiseIf b c) s := by
  cases b
  · exact .refl s
  · exact .raise s c

theorem Work.countKey (s : State) (k : KeyNo) (c : KeyCount) : Work (s.countKey k c) s := .setTau (.countKey s k c)

theorem Work.countOutlet (s : State) (o : OutletNo) (c : OutletCount) (n : Nat) : Work (s.countOutlet o c n) s := .setTau (.countOutlet s o c n)

theorem Work.countDevice (s : State) (c : DeviceCount) (n : Nat) : Work (s.countDevice c n) s := .setTau (.countDevice s c n)

/-- A change of the audit sampler alone. -/
theorem Work.setSampler (s : State) (v : BitVec 12) : Work { s with rd := { s.rd with sampler := v } } s where
  params := rfl
  time := rfl
  bpu := rfl
  oc := rfl
  sp := rfl
  pins := rfl
  due := rfl
  freeNext := rfl
  pending := rfl
  bank0 := rfl
  bank1 := rfl
  active := rfl
  planValid := rfl
  planStatus _ := rfl
  ilc := rfl
  service := .inl ⟨rfl, rfl⟩
  tau := .refl _
  records := .refl _
  outlet _ := .refl _
  capacity := id
  strokes := id

end Sys2Proof.Machine
end

