-- ==== Sys2Proof/Laws/WorkOps.lean ====
section
/-! SUPPORT. Each shared operation on records and outlets is work (`Work`). -/

namespace Sys2Proof.Machine

/-! ### Accounting -/

theorem Work.release (s : State) (o : OutletNo) (n : Nat) : Work (s.release o n) s := by
  unfold State.release
  dsimp only
  split
  · exact (Work.raise _ _).trans (.setOutlet (by constructor <;> simp) (by simp only [Outlet.fits]; omega) (by simp))
  · exact .setOutlet (by constructor <;> simp) (by simp only [Outlet.fits]; omega) (by simp)

theorem OutletKept.clearLatest (x : Outlet) (t : Tag) : OutletKept (x.clearLatest t) x := by
  unfold Outlet.clearLatest; split <;> constructor <;> simp

theorem OutletKept.cancelRequest (x : Outlet) (t : Tag) : OutletKept (x.cancelRequest t) x := by
  unfold Outlet.cancelRequest; split
  · split <;> constructor <;> simp
  · exact .refl _

@[simp] theorem Outlet.clearLatest_paddle (x : Outlet) (t : Tag) : (x.clearLatest t).paddle = x.paddle := by
  unfold Outlet.clearLatest; split <;> rfl

@[simp] theorem Outlet.cancelRequest_paddle (x : Outlet) (t : Tag) : (x.cancelRequest t).paddle = x.paddle := by
  unfold Outlet.cancelRequest; split
  · split <;> rfl
  · rfl

theorem Outlet.clearLatest_fits (x : Outlet) (t : Tag) : (x.clearLatest t).fits ↔ x.fits := by
  unfold Outlet.clearLatest; split <;> rfl

theorem Outlet.cancelRequest_fits (x : Outlet) (t : Tag) : (x.cancelRequest t).fits ↔ x.fits := by
  unfold Outlet.cancelRequest; split
  · split <;> rfl
  · rfl

theorem Work.judgeFill (s : State) (o : OutletNo) (old : Nat) : Work (s.judgeFill o old) s := by
  unfold State.judgeFill
  dsimp only
  refine (Work.raiseIf _ _ _).trans ?_
  split
  · exact .setOutlet (by constructor <;> simp) id (by simp)
  · exact .refl s

theorem Work.judgeClosing (s : State) (o : OutletNo) : Work (s.judgeClosing o) s := by
  unfold State.judgeClosing
  dsimp only
  split
  · exact (Work.raise _ _).trans (.setOutlet (by constructor <;> simp) id (by simp))
  · exact .refl s

/-! ### Retirement -/

theorem Work.drainCheck (s : State) : Work s.drainCheck s := by
  unfold State.drainCheck
  split
  · next h =>
    exact { params := rfl, time := rfl, bpu := rfl, oc := rfl, sp := rfl, pins := rfl, due := rfl, freeNext := rfl, pending := rfl,
            bank0 := rfl, bank1 := rfl, active := rfl, planValid := rfl, planStatus := fun _ => rfl, ilc := rfl,
            service := .inr ⟨h.1, rfl, h.2, rfl⟩, tau := .refl _, records := .refl _, outlet := fun _ => .refl _, capacity := id, strokes := id }
  · exact .refl s

theorem Heir.relink (s : State) (lead : Tag) (n : Nat) (m : Record) : Heir (s.relink lead n m) m := by
  unfold State.relink
  split <;> exact ⟨rfl, rfl, rfl, rfl, rfl, rfl, id, id, id, .inl ⟨rfl, rfl⟩⟩

theorem OutletKept.renameLatest (x : Outlet) (old lead : Tag) : OutletKept (x.renameLatest old lead) x := by
  unfold Outlet.renameLatest
  split
  · split
    · constructor <;> simp
    · exact .refl _
  · exact .refl _

@[simp] theorem Outlet.renameLatest_paddle (x : Outlet) (old lead : Tag) : (x.renameLatest old lead).paddle = x.paddle := by
  unfold Outlet.renameLatest
  split
  · split <;> rfl
  · rfl

theorem Outlet.renameLatest_fits (x : Outlet) (old lead : Tag) : (x.renameLatest old lead).fits ↔ x.fits := by
  unfold Outlet.renameLatest
  split
  · split <;> rfl
  · rfl

theorem Work.leaveCluster (s : State) (r : Record) : Work (s.leaveCluster r) s := by
  unfold State.leaveCluster
  split
  · exact .refl s
  · exact .refl s
  · have h := fun (lead : Tag) (n : Nat) => Work.mapRecords (s := s) (p := fun m => m.leaderTag == r.leaderTag) (f := s.relink lead n)
      fun m _ _ => Heir.relink s lead n m
    dsimp only
    split
    · exact h _ _
    · exact Work.trans (.modOutlet (fun x => .renameLatest _ _ _) (fun x h => (Outlet.renameLatest_fits _ _ _).mpr h) (by simp)) (h _ _)

/-- A record taken out of the table with its slot's generation advanced. -/
theorem Work.remove (s : State) (t : Tag) (i : Slot) :
    Work { s with tc := { records := s.tc.records.filter (fun x => x.tag != t), gens := vset s.tc.gens i (vget s.tc.gens i + 1) } } s where
  params := rfl
  time := rfl
  bpu := rfl
  oc := rfl
  sp := rfl
  pins := rfl
  due := rfl
  freeNext := rfl
  pending := rfl
  bank0 := rfl
  bank1 := rfl
  active := rfl
  planValid := rfl
  planStatus _ := rfl
  ilc := rfl
  service := .inl ⟨rfl, rfl⟩
  tau := .refl _
  records := .of_sublist List.filter_sublist
  outlet _ := .refl _
  capacity := id
  strokes := id

theorem Work.retire (s : State) (c : RetireOutcome) (t : Tag) : Work (s.retire c t) s := by
  unfold State.retire
  split
  · exact .refl s
  · exact (Work.drainCheck _).trans ((Work.leaveCluster _ _).trans ((Work.countKey _ _ _).trans (.remove _ _ _)))

theorem Work.retireAll (s : State) (c : RetireOutcome) (ts : List Tag) : Work (s.retireAll c ts) s :=
  Work.foldl (fun s t => Work.retire s c t) ts s

/-! ### Carrying -/

theorem Work.giveBack (s : State) (r : Record) : Work (s.giveBack r) s := by
  unfold State.giveBack
  split
  · exact .release _ _ _
  · exact .refl s

theorem Heir.carried (why : CarryReason) (goal : Pos) (r : Record) : Heir (r.carried why goal) r :=
  ⟨rfl, rfl, rfl, rfl, rfl, rfl, id, id, id, .inl ⟨rfl, rfl⟩⟩

theorem Work.carryRecord (s : State) (why : CarryReason) (t : Tag) : Work (s.carryRecord why t) s := by
  unfold State.carryRecord
  split
  · exact .refl s
  · next r _ =>
    have h : Work ((s.giveBack r).mapRecords (fun x => x.tag == t) (Record.carried why (s.endPoint r))) s :=
      (Work.mapRecords fun m _ _ => Heir.carried _ _ m).trans (.giveBack s r)
    dsimp only
    split
    · exact (Work.retire _ _ _).trans h
    · exact h

theorem Work.detach (s : State) (leader : Tag) : Work (s.detach leader) s := by
  unfold State.detach
  split
  · exact .refl s
  · split
    · exact .refl s
    · split
      · exact .modOutlet (fun x => (OutletKept.cancelRequest _ _).trans (.clearLatest _ _))
          (fun x h => (Outlet.cancelRequest_fits _ _).mpr ((Outlet.clearLatest_fits _ _).mpr h)) (by simp)
      · exact .refl s

theorem Work.carryCluster (s : State) (why : CarryReason) (leader : Tag) : Work (s.carryCluster why leader) s :=
  (Work.foldl (fun s t => Work.carryRecord s why t) _ _).trans (.detach s leader)

/-! ### Walks -/

theorem Work.planCheck (s : State) (c : ClassNo) (kind : CheckKind) (entry : RouteIx) : Work (s.planCheck c kind entry) s := by
  unfold State.planCheck
  have h : Work ((s.raise .plan).countDevice .planChecks 1) s := (Work.countDevice _ _ _).trans (.raise _ _)
  dsimp only
  split
  · next e =>
    refine Work.trans ?_ h
    exact { params := rfl, time := rfl, bpu := rfl, oc := rfl, sp := rfl, pins := rfl, due := rfl, freeNext := rfl, pending := rfl,
            bank0 := rfl, bank1 := rfl, active := rfl, planValid := rfl, planStatus := fun hs => by rw [e] at hs; exact absurd hs (by decide), ilc := rfl,
            service := .inl ⟨rfl, rfl⟩, tau := .refl _, records := .refl _, outlet := fun _ => .refl _, capacity := id, strokes := id }
  · exact h

theorem Work.routeCluster (s : State) (leader : Tag) (o : OutletNo) (entry : RouteIx) (f : Pos) : Work (s.routeCluster leader o entry f) s :=
  .mapRecords fun _ _ _ => ⟨rfl, rfl, rfl, rfl, rfl, rfl, id, id, id, .inl ⟨rfl, rfl⟩⟩

/-- An accepting outlet has room for the cluster (R68, R71). -/
theorem State.accept_fits {s : State} {o : OutletNo} {s0 : Pos} {ms : List Record} {f : Pos} (h : s.accept o s0 ms = .ok f) :
    (s.outlet o).fill + (s.outlet o).committed + s.clusterWeight ms ≤ (s.outlet o).fields.capacity := by
  unfold State.accept at h
  by_contra hc
  simp only at h
  repeat' split at h
  all_goals first | (cases h; done) | omega

/-- A walk that ends accepted ended at an outlet that accepts. -/
theorem State.walkFrom_accepted {s : State} {s0 : Pos} {ms : List Record} {o : OutletNo} {e : RouteIx} {f : Pos} :
    ∀ {fuel : Nat} {i : RouteIx} {j : Bool} {last : Option RefusalReason}, (s.walkFrom s0 ms fuel i j last).1 = .accepted o e f →
      s.accept o s0 ms = .ok f
  | 0, _, _, _, h => by simp [State.walkFrom] at h
  | fuel + 1, i, j, last, h => by
    unfold State.walkFrom at h
    split at h
    · cases h
    · split at h
      · cases h
      · exact State.walkFrom_accepted h
    · split at h
      · next hf => cases h; exact hf
      · split at h
        · cases h
        · split at h
          · cases h
          · exact State.walkFrom_accepted h

theorem State.walkChain_accepted {s : State} {s0 : Pos} {ms : List Record} {start : Option RouteIx} {o : OutletNo} {e : RouteIx} {f : Pos}
    (h : (s.walkChain s0 ms start).1 = .accepted o e f) : s.accept o s0 ms = .ok f := by
  unfold State.walkChain at h
  split at h
  · cases h
  · exact State.walkFrom_accepted h

/-- The members of a cluster after a change that keeps every leader. -/
theorem State.membersOf_mapRecords (s : State) (p : Record → Bool) (f : Record → Record) (hf : ∀ r, (f r).leaderTag = r.leaderTag) (t : Tag) :
    (s.mapRecords p f).membersOf t = (s.membersOf t).map (fun r => if p r then f r else r) := by
  simp only [State.membersOf, State.mapRecords_records, List.filter_map]
  congr 1
  apply List.filter_congr
  intro r _
  simp only [Function.comp]
  split
  · rw [hf]
  · rfl

/-- A weight is not moved by a change that keeps every class. -/
theorem State.clusterWeight_map (s : State) (f : Record → Record) (hf : ∀ r, (f r).cls = r.cls) (ms : List Record) :
    s.clusterWeight (ms.map f) = s.clusterWeight ms := by
  simp [State.clusterWeight, List.map_map, Function.comp_def, hf]

theorem Heir.walked (last : Option RefusalReason) (audit : Bool) (r : Record) : Heir (r.walked last audit) r :=
  ⟨rfl, rfl, rfl, rfl, rfl, rfl, fun h => by simp [Record.walked, h], id, id, .inl ⟨rfl, rfl⟩⟩

theorem Work.walk (s : State) (kind : WalkKind) (leader : Tag) : Work (s.walk kind leader) s := by
  unfold State.walk
  split
  · exact .refl s
  · next lead _ =>
    dsimp only
    generalize hs : s.sampleAudit kind (s.classEntry lead.cls) = sa
    obtain ⟨sampler, picked⟩ := sa
    dsimp only
    generalize hst : (if ((picked || (kind != .decision && lead.flags.audit)) && (s.classEntry lead.cls).auditHead.isSome) = true
      then (s.classEntry lead.cls).auditHead else (s.classEntry lead.cls).head) = start
    generalize hw : s.walkChain lead.stamp (s.membersOf leader) start = res
    obtain ⟨result, last⟩ := res
    dsimp only
    let mark := Record.walked last (picked && (s.classEntry lead.cls).auditHead.isSome)
    let s1 : State := { s with rd := { s.rd with sampler := sampler } }
    let s2 : State := s1.mapRecords (fun r => r.leaderTag == leader) mark
    have h1 : Work s2 s := (Work.mapRecords fun r _ _ => Heir.walked _ _ r).trans (.setSampler s sampler)
    refine Work.trans (b := s2) ?_ h1
    change Work (s2.applyWalk leader lead.cls result) s2
    unfold State.applyWalk
    split
    · next o e f =>
      refine (Work.routeCluster _ _ _ _ _).trans ?_
      have ha : s.accept o lead.stamp (s.membersOf leader) = .ok f := State.walkChain_accepted (start := start) (by rw [hw])
      have hfit := State.accept_fits ha
      have hm : s2.clusterWeight (s2.membersOf leader) = s.clusterWeight (s.membersOf leader) := by
        have e1 : s2.membersOf leader = (s1.membersOf leader).map (fun r => if (r.leaderTag == leader) = true then mark r else r) :=
          State.membersOf_mapRecords s1 _ mark (fun r => rfl) leader
        rw [e1, State.clusterWeight_map _ _ (fun r => by split <;> rfl)]
        rfl
      unfold State.reserve
      refine .setOutlet (by constructor <;> simp) (fun _ => ?_) (by simp)
      show (s.outlet o).fill + ((s.outlet o).committed + _) ≤ (s.outlet o).fields.capacity
      rw [hm]; omega
    · exact .carryCluster _ _ _
    · exact .carryCluster _ _ _
    · exact (Work.carryCluster _ _ _).trans (.planCheck _ _ _ _)

theorem Work.giveBackAll (ms : List Record) (s : State) : Work (ms.foldl State.giveBack s) s := Work.foldl Work.giveBack ms s

theorem Work.withdrawRoute (s : State) (leader : Tag) (mark : Flags → Flags) (h1 : ∀ f, (mark f).stampClamped = f.stampClamped)
    (h2 : ∀ f, f.audit = true → (mark f).audit = true) (h3 : ∀ f, f.amended = true → (mark f).amended = true)
    (h4 : ∀ f, f.rerouted = true → (mark f).rerouted = true) : Work (s.withdrawRoute leader mark) s :=
  (Work.mapRecords fun r _ _ => show Heir (Record.unrouted mark r) r from
    ⟨rfl, rfl, rfl, rfl, rfl, h1 r.flags, h2 r.flags, h3 r.flags, h4 r.flags, .inl ⟨rfl, rfl⟩⟩).trans
    ((Work.giveBackAll _ _).trans (.detach s leader))

theorem Work.reroute (s : State) (leader : Tag) : Work (s.reroute leader) s :=
  (Work.walk _ _ _).trans (.withdrawRoute _ _ _ (fun _ => rfl) (fun _ => id) (fun _ => id) (fun _ _ => rfl))

theorem Work.loseAcceptance (s : State) (o : OutletNo) : Work (s.loseAcceptance o) s :=
  Work.foldl (fun s t => by
    split
    · exact .reroute s t
    · exact .refl s) _ s

theorem Work.decideIfReached (s : State) (leader : Tag) : Work (s.decideIfReached leader) s := by
  unfold State.decideIfReached
  split
  · split
    · split
      · exact .walk _ _ _
      · exact .refl s
    · exact .refl s
  · exact .refl s

/-! ### Grants -/

/-- What is eligible is chosen. -/
theorem State.pickGrant_eligible {s : State} {o : OutletNo} (h : s.pickGrant = some o) : (s.outlet o).eligible = true := by
  have key : ∀ (l : List OutletNo) (best : Option OutletNo), (∀ b, best = some b → (s.outlet b).eligible = true) →
      ∀ o, l.foldl s.betterGrant best = some o → (s.outlet o).eligible = true := by
    intro l
    induction l with
    | nil => intro best hb o ho; exact hb o ho
    | cons a l ih =>
      intro best hb o ho
      refine ih _ (fun b hbb => ?_) o ho
      unfold State.betterGrant at hbb
      split at hbb
      · next he =>
        split at hbb
        · cases hbb; exact he
        · split at hbb
          · cases hbb; exact he
          · exact hb b hbb
      · exact hb b hbb
  exact key _ _ (by simp) o h

theorem Outlet.eligible_idle {x : Outlet} (h : x.eligible = true) : x.paddle = .idle := by
  simp only [Outlet.eligible, Bool.and_eq_true, beq_iff_eq] at h; exact h.1.2

/-- A grant at a paddle that is IDLE. -/
theorem Work.grantSet {s : State} {o : OutletNo} {x : Outlet} (hk : OutletKept x (s.outlet o)) (hc : (s.outlet o).fits → x.fits)
    (hi : (s.outlet o).paddle = .idle) (hp : x.paddle = .stroke) :
    Work { s.setOutlet o x with aa := { slotsInUse := s.aa.slotsInUse + 1 } } s where
  params := rfl
  time := rfl
  bpu := rfl
  oc := rfl
  sp := rfl
  pins := rfl
  due := rfl
  freeNext := rfl
  pending := rfl
  bank0 := rfl
  bank1 := rfl
  active := rfl
  planValid := rfl
  planStatus _ := rfl
  ilc := rfl
  service := .inl ⟨rfl, rfl⟩
  tau := .refl _
  records := .refl _
  outlet j := by
    show OutletKept ((s.setOutlet o x).outlet j) _
    rw [State.outlet_setOutlet]; split
    · next e => subst e; exact hk
    · exact .refl _
  capacity h j := by
    show ((s.setOutlet o x).outlet j).fits
    rw [State.outlet_setOutlet]; split
    · exact hc (h o)
    · exact h j
  strokes h := by
    have := s.strokeCount_setOutlet o x
    have e : State.strokeCount { s.setOutlet o x with aa := { slotsInUse := s.aa.slotsInUse + 1 } } = (s.setOutlet o x).strokeCount := rfl
    simp only [State.slotLaw, hi, hp, e] at *
    simp at this
    omega

theorem Heir.become (st : RecordState) (w : Option Pos) (r : Record) : Heir (r.become st w) r :=
  ⟨rfl, rfl, rfl, rfl, rfl, rfl, id, id, id, .inl ⟨rfl, rfl⟩⟩

theorem Work.become (s : State) (p : Record → Bool) (st : RecordState) (w : Option Pos) : Work (s.mapRecords p (Record.become st w)) s :=
  .mapRecords fun r _ _ => .become st w r

theorem Work.grant {s : State} {o : OutletNo} (h : (s.outlet o).eligible = true) : Work (s.grant o) s := by
  have hi := Outlet.eligible_idle h
  unfold State.grant
  split
  · exact .refl s
  · exact .grantSet (by constructor <;> simp [Outlet.startStroke]) id hi rfl
  · refine (Work.become _ _ _ _).trans ((Work.countOutlet _ _ _ _).trans ?_)
    exact .grantSet (by constructor <;> simp [Outlet.startStroke, Outlet.holdSet]) id hi rfl

theorem Work.grantUpTo (n : Nat) (s : State) : Work (s.grantUpTo n) s := by
  induction n generalizing s with
  | zero => exact .refl s
  | succ n ih =>
    unfold State.grantUpTo
    split
    · exact .refl s
    · split
      · exact .refl s
      · next h => exact (ih _).trans (.grant (State.pickGrant_eligible h))

theorem Work.grantDecision (s : State) : Work s.grantDecision s := .grantUpTo 16 s

/-! ### Strokes and faults -/

/-- A paddle that leaves STROKE gives up its slot. -/
theorem Work.freeSlot {s : State} {o : OutletNo} {x : Outlet} (hk : OutletKept x (s.outlet o)) (hc : (s.outlet o).fits → x.fits)
    (hi : (s.outlet o).paddle = .stroke) (hp : x.paddle ≠ .stroke) :
    Work { s.setOutlet o x with aa := { slotsInUse := s.aa.slotsInUse - 1 } } s where
  params := rfl
  time := rfl
  bpu := rfl
  oc := rfl
  sp := rfl
  pins := rfl
  due := rfl
  freeNext := rfl
  pending := rfl
  bank0 := rfl
  bank1 := rfl
  active := rfl
  planValid := rfl
  planStatus _ := rfl
  ilc := rfl
  service := .inl ⟨rfl, rfl⟩
  tau := .refl _
  records := .refl _
  outlet j := by
    show OutletKept ((s.setOutlet o x).outlet j) _
    rw [State.outlet_setOutlet]; split
    · next e => subst e; exact hk
    · exact .refl _
  capacity h j := by
    show ((s.setOutlet o x).outlet j).fits
    rw [State.outlet_setOutlet]; split
    · exact hc (h o)
    · exact h j
  strokes h := by
    have := s.strokeCount_setOutlet o x
    have e : State.strokeCount { s.setOutlet o x with aa := { slotsInUse := s.aa.slotsInUse - 1 } } = (s.setOutlet o x).strokeCount := rfl
    simp only [State.slotLaw, hi, hp, e] at *
    simp at this
    omega

theorem Work.enterFaulted (s : State) (o : OutletNo) : Work (s.enterFaulted o) s := by
  unfold State.enterFaulted
  dsimp only
  split
  · exact .refl s
  · refine (Work.loseAcceptance _ _).trans ((Work.raise _ _).trans ?_)
    split
    · next h => exact (Work.grantDecision _).trans (.freeSlot (by constructor <;> simp) id h (by simp))
    · next h => exact .setOutlet (by constructor <;> simp) id (by simp [h])

theorem Work.fireCluster (s : State) (leader : Tag) : Work (s.fireCluster leader) s := by
  unfold State.fireCluster
  split
  · exact .refl s
  · split
    · exact .refl s
    · dsimp only
      split
      · exact (Work.carryCluster _ _ _).trans (.countOutlet _ _ _ _)
      · refine (Work.become _ _ _ _).trans ?_
        split
        · exact (Work.grantDecision _).trans ((Work.become _ _ _ _).trans (.modOutlet (fun _ => by constructor <;> simp) (fun _ h => h) (fun _ => by simp)))
        · exact (Work.become _ _ _ _).trans (.modOutlet (fun _ => by constructor <;> simp) (fun _ h => h) (fun _ => by simp))

theorem Work.abandonLate (s : State) (leader : Tag) : Work (s.abandonLate leader) s := by
  unfold State.abandonLate
  split
  · exact .refl s
  · split
    · exact .refl s
    · exact (Work.carryCluster _ _ _).trans (.countOutlet _ _ _ _)

theorem Work.reachKind {s : State} {st : RecordState} {p : Pos} {act : State → Tag → State} (h : ∀ s t, Work (act s t) s) :
    Work (s.reachKind st p act) s :=
  Work.foldl (fun s t => by
    split
    · exact h s t
    · exact .refl s) _ s

theorem Work.reachWaypoints (s : State) : Work s.reachWaypoints s := by
  unfold State.reachWaypoints
  exact (Work.reachKind Work.abandonLate).trans ((Work.reachKind fun s t => Work.walk s _ t).trans ((Work.reachKind Work.fireCluster).trans
    ((Work.reachKind Work.abandonLate).trans (.reachKind fun s t => Work.retire s _ t))))

/-! ### Confirm, stray, miss -/

theorem Work.confirm (s : State) (o : OutletNo) (set : StrokeSet) : Work (s.confirm o set) s := by
  unfold State.confirm
  refine (Work.grantDecision _).trans ((Work.judgeClosing _ _).trans ((Work.judgeFill _ _ _).trans ((Work.countOutlet _ _ _ _).trans
    ((Work.countOutlet _ _ _ _).trans (Work.trans (.setOutlet ?_ ?_ ?_) (.retireAll s _ _))))))
  · constructor <;> simp
  · simp only [Outlet.fits]; omega
  · simp

theorem Work.stray (s : State) (o : OutletNo) : Work (s.stray o) s := by
  unfold State.stray
  dsimp only
  split
  · next h =>
    refine (Work.judgeFill _ _ _).trans (Work.trans (.setOutlet ?_ ?_ ?_) (.countOutlet s _ _ _))
    · constructor <;> simp
    · intro _; simp only [Outlet.fits]; omega
    · simp
  · exact .countOutlet _ _ _ _

theorem Work.takePassage (s : State) (o : OutletNo) : Work (s.takePassage o) s := by
  unfold State.takePassage
  split
  · exact .confirm _ _ _
  · exact .stray _ _

theorem Work.endSet (s : State) (o : OutletNo) : Work (s.modOutlet o Outlet.endSet) s :=
  .modOutlet (fun _ => by constructor <;> simp [Outlet.endSet]) (fun _ h => h) (fun _ => by simp [Outlet.endSet])

theorem Work.raiseMissRun (s : State) (o : OutletNo) : Work (s.modOutlet o Outlet.raiseMissRun) s :=
  .modOutlet (fun _ => by constructor <;> simp [Outlet.raiseMissRun]) (fun _ h => h) (fun _ => by simp [Outlet.raiseMissRun])

theorem Work.miss (s : State) (o : OutletNo) (set : StrokeSet) : Work (s.miss o set) s := by
  have h := (Work.raiseMissRun _ o).trans ((Work.countOutlet _ o .misses 1).trans
    ((Work.foldl (fun s t => Work.carryRecord s .strokeMiss t) set.members _).trans (.endSet s o)))
  unfold State.miss
  dsimp only
  split
  · exact (Work.enterFaulted _ _).trans h
  · exact (Work.grantDecision _).trans h

/-! ### Clusters, amendment, withdrawal -/

theorem Work.linkCluster (s : State) (ts : List Tag) : Work (s.linkCluster ts) s := by
  unfold State.linkCluster
  split
  · exact .refl s
  · exact .mapRecords fun r _ _ => by
      split <;> exact ⟨rfl, rfl, rfl, rfl, rfl, rfl, id, id, id, .inl ⟨rfl, rfl⟩⟩

theorem Work.carryOverlap (s : State) (why : CarryReason) (ts : List Tag) : Work (s.carryOverlap why ts) s :=
  Work.foldl (fun s t => by
    split
    · split
      · exact .refl s
      · exact .carryCluster _ _ _
    · exact .refl s) ts s

theorem Work.amendWrite (s : State) (t : Tag) (a : Amendment) : Work (s.mapRecords (fun x => x.tag == t) a.apply) s :=
  .mapRecords fun _ _ _ => ⟨rfl, rfl, rfl, rfl, rfl, rfl, id, fun _ => rfl, id, .inr rfl⟩

theorem Work.amend {s t : State} {r : Record} {a : Amendment} (h : s.amend r a = some t) : Work t s := by
  unfold State.amend at h
  dsimp only at h
  split at h
  · cases h; exact .amendWrite _ _ _
  · cases h; exact .amendWrite _ _ _
  · split at h
    · cases h
      exact (Work.walk _ _ _).trans ((Work.amendWrite _ _ _).trans (.withdrawRoute s _ id (fun _ => rfl) (fun _ => id) (fun _ => id) (fun _ => id)))
    · cases h
  · cases h

theorem OutletKept.dropMember (x : Outlet) (t : Tag) (n : Nat) : OutletKept (x.dropMember t n) x := by
  unfold Outlet.dropMember
  split
  · split
    · constructor <;> simp
    · exact .refl _
  · exact .refl _

@[simp] theorem Outlet.dropMember_paddle (x : Outlet) (t : Tag) (n : Nat) : (x.dropMember t n).paddle = x.paddle := by
  unfold Outlet.dropMember
  split
  · split <;> rfl
  · rfl

theorem Outlet.dropMember_fits (x : Outlet) (t : Tag) (n : Nat) : (x.dropMember t n).fits ↔ x.fits := by
  unfold Outlet.dropMember
  split
  · split <;> rfl
  · rfl

/-- A record of a waiting cluster taken off its outlet. -/
theorem Work.leaveOutlet (s : State) (o : OutletNo) (t leader : Tag) (n : Nat) (last : Bool) :
    Work (s.modOutlet o (fun x =>
      let x := x.dropMember t n
      if last then x.clearLatest leader else x)) s := by
  refine .modOutlet (fun x => ?_) (fun x h => ?_) (fun x => ?_) <;> cases last
  · exact .dropMember _ _ _
  · exact (OutletKept.clearLatest _ _).trans (.dropMember _ _ _)
  · exact (Outlet.dropMember_fits _ _ _).mpr h
  · exact (Outlet.clearLatest_fits _ _).mpr ((Outlet.dropMember_fits _ _ _).mpr h)
  · simp
  · simp

theorem Work.withdraw {s t : State} {r : Record} (h : s.withdraw r = some t) : Work t s := by
  unfold State.withdraw at h
  dsimp only at h
  split at h
  · cases h
  · cases h; exact .retire _ _ _
  · cases h; exact (Work.retire _ _ _).trans ((Work.release _ _ _).trans (.leaveOutlet _ _ _ _ _ _))
  · cases h; exact (Work.retire _ _ _).trans ((Work.release _ _ _).trans (.leaveOutlet _ _ _ _ _ _))
  · split at h
    · cases h
      split
      · exact (Work.decideIfReached _ _).trans (.retire _ _ _)
      · exact .retire _ _ _
    · cases h; exact .retire _ _ _

end Sys2Proof.Machine
end

