-- ==== Sys2Proof/Laws/Grant.lean ====
section
/-! SUPPORT. What a grant decision does, said once: `State.grantDecision` meets `GrantDecision` (R122, R123, R126). -/

namespace Sys2Proof.Machine

theorem Outlet.eligible_iff (s : State) (o : OutletNo) : (s.outlet o).eligible = true ↔ s.canGrant o := by
  simp only [Outlet.eligible, State.canGrant, Bool.and_eq_true, beq_iff_eq, Option.isSome_iff_ne_none, Option.isNone_iff_eq_none, and_assoc]

theorem State.outlet_withSlots (s : State) (a : Aa) (o : OutletNo) : ({ s with aa := a } : State).outlet o = s.outlet o := rfl

/-! ### The order of grants -/

/-- The grant rank of a request with its outlet number is a strict order that R123 words. -/
theorem State.goesBefore_iff {s : State} {a b : OutletNo} (ha : s.canGrant a) (hb : s.canGrant b) :
    s.goesBefore a b ↔ rankBefore (grantRank s.bpu.position (s.outlet a)) (grantRank s.bpu.position (s.outlet b)) = true
      ∨ grantRank s.bpu.position (s.outlet a) = grantRank s.bpu.position (s.outlet b) ∧ a < b := by
  have ha1 := ha.1
  have hb1 := hb.1
  clear ha hb
  unfold State.goesBefore State.tieBreak grantRank rankBefore
  obtain ⟨ra, hra⟩ := Option.ne_none_iff_exists'.mp ha1
  obtain ⟨rb, hrb⟩ := Option.ne_none_iff_exists'.mp hb1
  rw [hra, hrb]
  cases ra <;> cases rb <;> simp <;> tauto

theorem rankBefore_trans {a b c : Nat × Nat × Nat} (h : rankBefore a b = true) (k : rankBefore b c = true) : rankBefore a c = true := by
  simp only [rankBefore, Bool.or_eq_true, Bool.and_eq_true, decide_eq_true_eq, beq_iff_eq] at *
  omega

theorem rankBefore_total {a b : Nat × Nat × Nat} (h : ¬rankBefore a b = true) : rankBefore b a = true ∨ b = a := by
  obtain ⟨a1, a2, a3⟩ := a
  obtain ⟨b1, b2, b3⟩ := b
  simp only [rankBefore, Bool.or_eq_true, Bool.and_eq_true, decide_eq_true_eq, beq_iff_eq, Prod.mk.injEq] at *
  omega

/-- What the search for a grant has found after the outlets of a list. -/
abbrev State.Best (s : State) (l : List OutletNo) : Option OutletNo → Prop
  | none => ∀ o ∈ l, ¬s.canGrant o
  | some b => b ∈ l ∧ s.canGrant b ∧ ∀ o ∈ l, s.canGrant o → o ≠ b → s.goesBefore b o

theorem State.best_step {s : State} {l : List OutletNo} {best : Option OutletNo} {o : OutletNo} (hl : ∀ a ∈ l, a < o) (h : s.Best l best) :
    s.Best (l ++ [o]) (s.betterGrant best o) := by
  unfold State.betterGrant
  by_cases he : (s.outlet o).eligible = true
  · have hc := (Outlet.eligible_iff s o).mp he
    rw [if_pos he]
    cases best with
    | none =>
      refine ⟨by simp, hc, fun a ha hca hne => ?_⟩
      rcases List.mem_append.mp ha with ha | ha
      · exact absurd hca (h a ha)
      · exact absurd (List.mem_singleton.mp ha) hne
    | some b =>
      obtain ⟨hb, hcb, hall⟩ := h
      dsimp only
      split
      · next hr =>
        refine ⟨by simp, hc, fun a ha hca hne => ?_⟩
        rcases List.mem_append.mp ha with ha | ha
        · by_cases hab : a = b
          · subst hab; exact (State.goesBefore_iff hc hca).mpr (.inl hr)
          · rcases (State.goesBefore_iff hcb hca).mp (hall a ha hca hab) with k | ⟨k, _⟩
            · exact (State.goesBefore_iff hc hca).mpr (.inl (rankBefore_trans hr k))
            · exact (State.goesBefore_iff hc hca).mpr (.inl (k ▸ hr))
        · exact absurd (List.mem_singleton.mp ha) hne
      · next hr =>
        refine ⟨by simp [hb], hcb, fun a ha hca hne => ?_⟩
        rcases List.mem_append.mp ha with ha | ha
        · exact hall a ha hca hne
        · cases List.mem_singleton.mp ha
          rcases rankBefore_total hr with k | k
          · exact (State.goesBefore_iff hcb hca).mpr (.inl k)
          · exact (State.goesBefore_iff hcb hca).mpr (.inr ⟨k, hl b hb⟩)
  · rw [if_neg he]
    have hc : ¬s.canGrant o := fun h => he ((Outlet.eligible_iff s o).mpr h)
    cases best with
    | none =>
      intro a ha
      rcases List.mem_append.mp ha with ha | ha
      · exact h a ha
      · cases List.mem_singleton.mp ha; exact hc
    | some b =>
      refine ⟨by simp [h.1], h.2.1, fun a ha hca hne => ?_⟩
      rcases List.mem_append.mp ha with ha | ha
      · exact h.2.2 a ha hca hne
      · cases List.mem_singleton.mp ha; exact absurd hca hc

theorem State.best_foldl {s : State} (m : List OutletNo) :
    ∀ (l : List OutletNo) (best : Option OutletNo), (∀ a ∈ l, ∀ b ∈ m, a < b) → m.Pairwise (· < ·) → s.Best l best →
      s.Best (l ++ m) (m.foldl s.betterGrant best) := by
  induction m with
  | nil => intro l best _ _ h; simpa using h
  | cons o m ih =>
    intro l best hl hm h
    have := ih (l ++ [o]) (s.betterGrant best o) ?_ hm.of_cons (State.best_step (fun a ha => hl a ha o (by simp)) h)
    · simpa using this
    · intro a ha b hb
      rcases List.mem_append.mp ha with ha | ha
      · exact hl a ha b (by simp [hb])
      · cases List.mem_singleton.mp ha; exact List.rel_of_pairwise_cons hm hb

/-- The request that a grant decision picks is the one that goes before every other that can be granted, and it picks none only when none can. -/
theorem State.pickGrant_best (s : State) : s.Best outletNos s.pickGrant := by
  have := State.best_foldl (s := s) outletNos [] none (by simp) (by decide) (by intro o ho; simp at ho)
  simpa [State.pickGrant] using this

/-! ### One grant -/

theorem State.granted_of_grant {s : State} {o : OutletNo} (h : s.canGrant o) (b : OutletNo) :
    (s.grant o).outlet b = if o = b then (s.outlet o).granted else s.outlet b := by
  have h1 := h.1
  unfold State.grant Outlet.granted
  cases hr : (s.outlet o).request with
  | none => exact absurd hr h1
  | some x =>
    cases x with
    | test =>
      simp only [State.outlet_withSlots, State.outlet_modOutlet]
      by_cases hb : o = b
      · subst hb; simp [Outlet.startStroke]
      · simp [hb]
    | deadline members late units =>
      simp only [State.outlet_mapRecords, State.outlet_countOutlet, State.outlet_withSlots, State.outlet_modOutlet]
      by_cases hb : o = b
      · subst hb
        simp only [if_true, Outlet.startStroke, Outlet.holdSet]
        congr 1
        cases hl : (s.outlet o).latest with
        | none => simp
        | some l => by_cases hm : l.owner ∈ members <;> simp [hm]
      · simp [hb]

theorem State.grant_rest {s : State} {o : OutletNo} (h : s.canGrant o) :
    s.grant o = { s with
      tc := { s.tc with records := (s.grant o).tc.records }
      outlets := (s.grant o).outlets
      tau := { s.tau with outlets := (s.grant o).tau.outlets }
      aa := { slotsInUse := s.aa.slotsInUse + 1 } } := by
  have h1 := h.1
  unfold State.grant
  cases hr : (s.outlet o).request with
  | none => exact absurd hr h1
  | some x => cases x <;> rfl

theorem State.grant_records {s : State} {o : OutletNo} (h : s.canGrant o) :
    (s.grant o).tc.records =
      s.tc.records.map (fun r => if r.tag ∈ (s.outlet o).requestMembers then { r with state := .fired, waypoint := none } else r) := by
  have h1 := h.1
  unfold State.grant Outlet.requestMembers
  cases hr : (s.outlet o).request with
  | none => exact absurd hr h1
  | some x =>
    cases x with
    | test => simp [State.modOutlet]
    | deadline members late units => simp [State.modOutlet, Record.become]

theorem State.grant_strokes {s : State} {o : OutletNo} (h : s.canGrant o) (b : OutletNo) :
    vget (s.grant o).tau.outlets b = if b = o ∧ (s.outlet o).request ≠ some .test then
      { vget s.tau.outlets b with strokes := min 16777215 ((vget s.tau.outlets b).strokes + 1) } else vget s.tau.outlets b := by
  have h1 := h.1
  unfold State.grant
  cases hr : (s.outlet o).request with
  | none => exact absurd hr h1
  | some x =>
    cases x with
    | test => simp [State.modOutlet, State.setOutlet]
    | deadline members late units =>
      simp only [State.mapRecords_tau, State.countOutlet, State.modOutlet_tau, vget_vset, OutletTally.add, bump]
      by_cases hb : o = b
      · subst hb; simp
      · simp [hb, Ne.symm hb]

theorem Outlet.granted_busy {x : Outlet} (h : x.request ≠ none) : x.granted.paddle = .stroke := by
  unfold Outlet.granted
  split <;> simp_all

/-! ### A decision -/

/-- Everything of a grant decision but the reason it stops. -/
structure GrantsSome (new old : State) (g : List OutletNo) : Prop where
  nodup : g.Nodup
  able : ∀ o ∈ g, old.canGrant o
  order : ∀ a ∈ g, ∀ b, b ∉ g → old.canGrant b → old.goesBefore a b
  budget : g = [] ∨ old.aa.slotsInUse + g.length ≤ old.params.airBudget
  outlets : ∀ o, new.outlet o = if o ∈ g then (old.outlet o).granted else old.outlet o
  records : new.tc.records = old.tc.records.map (fun r =>
    if ∃ o ∈ g, r.tag ∈ (old.outlet o).requestMembers then { r with state := .fired, waypoint := none } else r)
  strokes : ∀ o, vget new.tau.outlets o =
    if o ∈ g ∧ (old.outlet o).request ≠ some .test then
      { vget old.tau.outlets o with strokes := min 16777215 ((vget old.tau.outlets o).strokes + 1) }
    else vget old.tau.outlets o
  rest : new = { old with
    tc := { old.tc with records := new.tc.records }
    outlets := new.outlets
    tau := { old.tau with outlets := new.tau.outlets }
    aa := { slotsInUse := old.aa.slotsInUse + g.length } }

theorem GrantsSome.none (s : State) : GrantsSome s s [] where
  nodup := List.nodup_nil
  able := by simp
  order := by simp
  budget := .inl rfl
  outlets := by simp
  records := by simp
  strokes := by simp
  rest := by simp

theorem GrantsSome.cons {s t : State} {o : OutletNo} {g : List OutletNo} (ho : s.canGrant o)
    (hbest : ∀ b, s.canGrant b → b ≠ o → s.goesBefore o b) (hfree : s.aa.slotsInUse < s.params.airBudget) (h : GrantsSome t (s.grant o) g) :
    GrantsSome t s (o :: g) := by
  have hrest := State.grant_rest ho
  have hpos : (s.grant o).bpu = s.bpu := by rw [hrest]
  have hpar : (s.grant o).params = s.params := by rw [hrest]
  have hslots : (s.grant o).aa.slotsInUse = s.aa.slotsInUse + 1 := by rw [hrest]
  have hother : ∀ b, b ≠ o → (s.grant o).outlet b = s.outlet b := fun b hb => by rw [State.granted_of_grant ho, if_neg (Ne.symm hb)]
  have hself : (s.grant o).outlet o = (s.outlet o).granted := by rw [State.granted_of_grant ho, if_pos rfl]
  have hnot : ¬(s.grant o).canGrant o := by
    rintro ⟨_, h2, _⟩
    rw [hself, Outlet.granted_busy ho.1] at h2
    exact absurd h2 (by decide)
  have hmem : o ∉ g := fun k => hnot (h.able o k)
  have hcan : ∀ b, b ≠ o → ((s.grant o).canGrant b ↔ s.canGrant b) := fun b hb => by simp only [State.canGrant, hother b hb]
  have hgb : ∀ a b, a ≠ o → b ≠ o → ((s.grant o).goesBefore a b ↔ s.goesBefore a b) := fun a b ha hb => by
    simp only [State.goesBefore, State.tieBreak, hother a ha, hother b hb, hpos]
  have hne : ∀ a ∈ g, a ≠ o := fun a ha e => hmem (e ▸ ha)
  refine ⟨List.nodup_cons.mpr ⟨hmem, h.nodup⟩, ?_, ?_, ?_, ?_, ?_, ?_, ?_⟩
  · intro a ha
    rcases List.mem_cons.mp ha with rfl | ha
    · exact ho
    · exact (hcan a (hne a ha)).mp (h.able a ha)
  · intro a ha b hb hcb
    have hbo : b ≠ o := fun e => hb (by simp [e])
    rcases List.mem_cons.mp ha with rfl | ha
    · exact hbest b hcb hbo
    · exact (hgb a b (hne a ha) hbo).mp (h.order a ha b (fun k => hb (by simp [k])) ((hcan b hbo).mpr hcb))
  · right
    have := h.budget
    rw [hslots, hpar] at this
    rcases this with rfl | k
    · simp only [List.length_singleton]; omega
    · simp only [List.length_cons]; omega
  · intro b
    rw [h.outlets b]
    by_cases hb : b = o
    · subst hb; simp [hmem, hself]
    · simp [hb, hother b hb]
  · rw [h.records, State.grant_records ho, List.map_map]
    refine List.map_congr_left fun r _ => ?_
    have key : ∀ q : Record, q.tag = r.tag →
        ((∃ a ∈ g, q.tag ∈ ((s.grant o).outlet a).requestMembers) ↔ ∃ a ∈ g, r.tag ∈ (s.outlet a).requestMembers) := by
      intro q hq
      constructor
      · rintro ⟨a, ha, k⟩; exact ⟨a, ha, by rw [← hother a (hne a ha), ← hq]; exact k⟩
      · rintro ⟨a, ha, k⟩; exact ⟨a, ha, by rw [hother a (hne a ha), hq]; exact k⟩
    simp only [Function.comp_apply]
    by_cases h1 : r.tag ∈ (s.outlet o).requestMembers
    · have : ∃ a ∈ o :: g, r.tag ∈ (s.outlet a).requestMembers := ⟨o, by simp, h1⟩
      rw [if_pos h1, if_pos this]
      split <;> rfl
    · rw [if_neg h1]
      have : (∃ a ∈ o :: g, r.tag ∈ (s.outlet a).requestMembers) ↔ ∃ a ∈ g, r.tag ∈ (s.outlet a).requestMembers := by simp [h1]
      simp only [this, key r rfl]
  · intro b
    rw [h.strokes b, State.grant_strokes ho]
    by_cases hb : b = o
    · subst hb; simp [hmem]
    · simp [hb, hother b hb]
  · have := h.rest
    rw [this, hrest]
    simp only [List.length_cons, Nat.add_assoc, Nat.add_comm 1]

theorem State.grantUpTo_spec (n : Nat) :
    ∀ s : State, ∃ g, GrantsSome (s.grantUpTo n) s g
      ∧ (g.length = n ∨ s.params.airBudget ≤ s.aa.slotsInUse + g.length ∨ ∀ o, s.canGrant o → o ∈ g) := by
  induction n with
  | zero => intro s; exact ⟨[], .none s, .inl rfl⟩
  | succ n ih =>
    intro s
    unfold State.grantUpTo
    split
    · next h => exact ⟨[], .none s, .inr (.inl (by simpa using h))⟩
    · next hfree =>
      have hb := State.pickGrant_best s
      split
      · next hp =>
        rw [hp] at hb
        exact ⟨[], .none s, .inr (.inr fun o ho => absurd ho (hb o (mem_outletNos o)))⟩
      · next o hp =>
        rw [hp] at hb
        obtain ⟨_, hc, hbest⟩ := hb
        obtain ⟨g, hg, hstop⟩ := ih (s.grant o)
        have hrest := State.grant_rest hc
        have hpar : (s.grant o).params = s.params := by rw [hrest]
        have hslots : (s.grant o).aa.slotsInUse = s.aa.slotsInUse + 1 := by rw [hrest]
        refine ⟨o :: g, .cons hc (fun b hcb hne => hbest b (mem_outletNos b) hcb hne) (by omega) hg, ?_⟩
        rcases hstop with h | h | h
        · left; simp [h]
        · right; left; rw [hpar, hslots] at h; simp only [List.length_cons]; omega
        · right; right
          intro b hcb
          by_cases hbo : b = o
          · simp [hbo]
          · refine List.mem_cons_of_mem _ (h b ?_)
            have : (s.grant o).outlet b = s.outlet b := by rw [State.granted_of_grant hc, if_neg (Ne.symm hbo)]
            simpa only [State.canGrant, this] using hcb

/-- A grant decision grants what R122 and R123 have it grant. -/
theorem State.grantDecision_spec (s : State) : ∃ g, GrantDecision s.grantDecision s g := by
  obtain ⟨g, h, hstop⟩ := State.grantUpTo_spec 16 s
  refine ⟨g, h.nodup, h.able, h.order, h.budget, ?_, h.outlets, h.records, h.strokes, h.rest⟩
  rcases hstop with k | k | k
  · right
    intro o _
    have hcard : g.toFinset.card = 16 := by rw [List.toFinset_card_of_nodup h.nodup, k]
    have : g.toFinset = Finset.univ := Finset.card_eq_iff_eq_univ _ |>.mp (by simpa using hcard)
    have ho : o ∈ g.toFinset := by rw [this]; exact Finset.mem_univ o
    exact List.mem_toFinset.mp ho
  · exact .inl k
  · exact .inr k

/-- With no request that can be granted, a grant decision does nothing (R122). -/
theorem State.grantDecision_idle {s : State} (h : ∀ o, ¬s.canGrant o) : s.grantDecision = s := by
  have hb := State.pickGrant_best s
  have : s.pickGrant = none := by
    cases hp : s.pickGrant with
    | none => rfl
    | some o => rw [hp] at hb; exact absurd hb.2.1 (h o)
  unfold State.grantDecision State.grantUpTo
  split
  · rfl
  · simp [this]

/-- With no request waiting, a grant decision does nothing. -/
theorem State.grantDecision_quiet {s : State} (h : s.quiet) : s.grantDecision = s := State.grantDecision_idle fun o k => k.1 (h o)

end Sys2Proof.Machine
end

