-- ==== Sys2Proof/Laws/PerInstr.lean ====
section
/-! SUPPORT. One lemma for each command about its bytes: a request's code and its argument length are ones that spec/11 lists, and no command
is a frame of both links. -/

namespace Sys2Proof.Laws

/-- The numbers of argument bytes that each request code permits (spec/11, Requests). -/
def permitted : List (Nat × Nat) :=
  [(0x01, 0), (0x02, 4), (0x03, 1), (0x10, 5), (0x10, 10), (0x11, 1), (0x12, 1), (0x13, 1), (0x14, 1), (0x15, 1), (0x16, 1), (0x17, 1),
    (0x20, 7), (0x21, 5), (0x22, 3), (0x23, 0), (0x24, 0), (0x25, 0), (0x30, 0), (0x31, 0), (0x32, 0), (0x40, 2), (0x41, 0), (0x41, 2),
    (0x42, 3), (0x43, 5), (0x44, 2), (0x50, 3), (0x51, 2), (0x52, 1)]

/-- The code and the argument length of a request are permitted together and its code is a known one; a command with a request code has no
intake frame type, and one with no request code has no argument bytes. -/
def PortCodec.Statement (c : Instr) : Prop :=
  match requestCode c with
  | some code => (code.toNat, (requestArgs c).length) ∈ permitted ∧ knownRequest code = true ∧ intakeType c = none
  | none => requestArgs c = [] ∧ portFrame c = []

theorem PortCodec.powerOnReset : ∀ csLow, PortCodec.Statement (.powerOnReset csLow) := fun _ => ⟨rfl, rfl⟩

theorem PortCodec.millisecondTick : ∀ lines, PortCodec.Statement (.millisecondTick lines) := fun _ => ⟨rfl, rfl⟩

theorem PortCodec.encoderStep : ∀ a b, PortCodec.Statement (.encoderStep a b) := fun _ _ => ⟨rfl, rfl⟩

theorem PortCodec.speedWindowExpiry : PortCodec.Statement .speedWindowExpiry := ⟨rfl, rfl⟩

theorem PortCodec.stall : PortCodec.Statement .stall := ⟨rfl, rfl⟩

theorem PortCodec.strokeEnd : ∀ o, PortCodec.Statement (.strokeEnd o) := fun _ => ⟨rfl, rfl⟩

theorem PortCodec.recoveryEnd : ∀ o, PortCodec.Statement (.recoveryEnd o) := fun _ => ⟨rfl, rfl⟩

theorem PortCodec.homeTimeout : ∀ o, PortCodec.Statement (.homeTimeout o) := fun _ => ⟨rfl, rfl⟩

theorem PortCodec.homeLevelAccepted : ∀ o home, PortCodec.Statement (.homeLevelAccepted o home) := fun _ _ => ⟨rfl, rfl⟩

theorem PortCodec.confirmWindowExpiry : ∀ o, PortCodec.Statement (.confirmWindowExpiry o) := fun _ => ⟨rfl, rfl⟩

theorem PortCodec.rackArrival : ∀ o key, PortCodec.Statement (.rackArrival o key) := fun _ _ => ⟨rfl, rfl⟩

theorem PortCodec.rackRemoval : ∀ o, PortCodec.Statement (.rackRemoval o) := fun _ => ⟨rfl, rfl⟩

theorem PortCodec.swapPress : ∀ o, PortCodec.Statement (.swapPress o) := fun _ => ⟨rfl, rfl⟩

theorem PortCodec.passage : ∀ o, PortCodec.Statement (.passage o) := fun _ => ⟨rfl, rfl⟩

theorem PortCodec.chuteBlocked : ∀ o, PortCodec.Statement (.chuteBlocked o) := fun _ => ⟨rfl, rfl⟩

theorem PortCodec.chuteClear : ∀ o, PortCodec.Statement (.chuteClear o) := fun _ => ⟨rfl, rfl⟩

theorem PortCodec.badFrame : ∀ cause, PortCodec.Statement (.badFrame cause) := fun _ => ⟨rfl, rfl⟩

theorem PortCodec.join : ∀ level, PortCodec.Statement (.join level) := fun _ => ⟨rfl, rfl⟩

theorem PortCodec.keepalive : PortCodec.Statement .keepalive := ⟨rfl, rfl⟩

theorem PortCodec.notice : ∀ number stamp length cls key, PortCodec.Statement (.notice number stamp length cls key) := fun _ _ _ _ _ => ⟨rfl, rfl⟩

theorem PortCodec.revise : ∀ number selClass selKey cls key, PortCodec.Statement (.revise number selClass selKey cls key) := fun _ _ _ _ _ => ⟨rfl, rfl⟩

theorem PortCodec.syncTimeout : PortCodec.Statement .syncTimeout := ⟨rfl, rfl⟩

theorem PortCodec.linkSilenceTimeout : PortCodec.Statement .linkSilenceTimeout := ⟨rfl, rfl⟩

theorem PortCodec.beacon : PortCodec.Statement .beacon := ⟨rfl, rfl⟩

theorem PortCodec.beaconTransmitDone : PortCodec.Statement .beaconTransmitDone := ⟨rfl, rfl⟩

theorem PortCodec.readResponse : ∀ n, PortCodec.Statement (.readResponse n) := fun _ => ⟨rfl, rfl⟩

theorem PortCodec.queryStatus : PortCodec.Statement .queryStatus := ⟨of_decide_eq_true rfl, rfl, rfl⟩

theorem PortCodec.setParam : ∀ number value, PortCodec.Statement (.setParam number value) := fun _ _ => ⟨of_decide_eq_true rfl, rfl, rfl⟩

theorem PortCodec.getParam : ∀ number, PortCodec.Statement (.getParam number) := fun _ => ⟨of_decide_eq_true rfl, rfl, rfl⟩

theorem PortCodec.setOutletField : ∀ outlet field value, PortCodec.Statement (.setOutletField outlet field value) := fun
  | _, _, .short _ => ⟨of_decide_eq_true rfl, rfl, rfl⟩
  | _, _, .mask _ => ⟨of_decide_eq_true rfl, rfl, rfl⟩

theorem PortCodec.getOutlet : ∀ outlet, PortCodec.Statement (.getOutlet outlet) := fun _ => ⟨of_decide_eq_true rfl, rfl, rfl⟩

theorem PortCodec.outletEnable : ∀ outlet, PortCodec.Statement (.outletEnable outlet) := fun _ => ⟨of_decide_eq_true rfl, rfl, rfl⟩

theorem PortCodec.outletDisable : ∀ outlet, PortCodec.Statement (.outletDisable outlet) := fun _ => ⟨of_decide_eq_true rfl, rfl, rfl⟩

theorem PortCodec.outletClose : ∀ outlet, PortCodec.Statement (.outletClose outlet) := fun _ => ⟨of_decide_eq_true rfl, rfl, rfl⟩

theorem PortCodec.reopen : ∀ outlet, PortCodec.Statement (.reopen outlet) := fun _ => ⟨of_decide_eq_true rfl, rfl, rfl⟩

theorem PortCodec.clearFault : ∀ outlet, PortCodec.Statement (.clearFault outlet) := fun _ => ⟨of_decide_eq_true rfl, rfl, rfl⟩

theorem PortCodec.testStroke : ∀ outlet, PortCodec.Statement (.testStroke outlet) := fun _ => ⟨of_decide_eq_true rfl, rfl, rfl⟩

theorem PortCodec.putClass : ∀ cls weight head audit auditHead, PortCodec.Statement (.putClass cls weight head audit auditHead) := fun _ _ _ _ _ => ⟨of_decide_eq_true rfl, rfl, rfl⟩

theorem PortCodec.putRoute : ∀ index kind field chain, PortCodec.Statement (.putRoute index kind field chain) := fun _ _ _ _ => ⟨of_decide_eq_true rfl, rfl, rfl⟩

theorem PortCodec.getPlanEntry : ∀ bank table index, PortCodec.Statement (.getPlanEntry bank table index) := fun _ _ _ => ⟨of_decide_eq_true rfl, rfl, rfl⟩

theorem PortCodec.commitPlan : PortCodec.Statement .commitPlan := ⟨of_decide_eq_true rfl, rfl, rfl⟩

theorem PortCodec.readPlanStatus : PortCodec.Statement .readPlanStatus := ⟨of_decide_eq_true rfl, rfl, rfl⟩

theorem PortCodec.clearPlanStatus : PortCodec.Statement .clearPlanStatus := ⟨of_decide_eq_true rfl, rfl, rfl⟩

theorem PortCodec.startService : PortCodec.Statement .startService := ⟨of_decide_eq_true rfl, rfl, rfl⟩

theorem PortCodec.stopService : PortCodec.Statement .stopService := ⟨of_decide_eq_true rfl, rfl, rfl⟩

theorem PortCodec.resetTracking : PortCodec.Statement .resetTracking := ⟨of_decide_eq_true rfl, rfl, rfl⟩

theorem PortCodec.findTrack : ∀ tag, PortCodec.Statement (.findTrack tag) := fun _ => ⟨of_decide_eq_true rfl, rfl, rfl⟩

theorem PortCodec.nextTrack : ∀ tag, PortCodec.Statement (.nextTrack tag) := fun
  | none => ⟨of_decide_eq_true rfl, rfl, rfl⟩
  | some _ => ⟨of_decide_eq_true rfl, rfl, rfl⟩

theorem PortCodec.findAt : ∀ d, PortCodec.Statement (.findAt d) := fun _ => ⟨of_decide_eq_true rfl, rfl, rfl⟩

theorem PortCodec.amendTrack : ∀ tag sel cls key, PortCodec.Statement (.amendTrack tag sel cls key) := fun _ _ _ _ => ⟨of_decide_eq_true rfl, rfl, rfl⟩

theorem PortCodec.withdrawTrack : ∀ tag, PortCodec.Statement (.withdrawTrack tag) := fun _ => ⟨of_decide_eq_true rfl, rfl, rfl⟩

theorem PortCodec.readTallies : ∀ group index clear, PortCodec.Statement (.readTallies group index clear) := fun _ _ _ => ⟨of_decide_eq_true rfl, rfl, rfl⟩

theorem PortCodec.setAttention : ∀ enables lineMap, PortCodec.Statement (.setAttention enables lineMap) := fun _ _ => ⟨of_decide_eq_true rfl, rfl, rfl⟩

theorem PortCodec.ackAttention : ∀ sel, PortCodec.Statement (.ackAttention sel) := fun _ => ⟨of_decide_eq_true rfl, rfl, rfl⟩

theorem PortCodec.encoderSample : ∀ a b, PortCodec.Statement (.encoderSample a b) := fun _ _ => ⟨rfl, rfl⟩

theorem PortCodec.receivedByte : ∀ levels, PortCodec.Statement (.receivedByte levels) := fun _ => ⟨rfl, rfl⟩

theorem PortCodec.badPortFrame : ∀ bytes extra, PortCodec.Statement (.badPortFrame bytes extra) := fun _ _ => ⟨rfl, rfl⟩

theorem PortCodec.resetHoldCleared : PortCodec.Statement .resetHoldCleared := ⟨rfl, rfl⟩

end Sys2Proof.Laws
end

