-- ==== Sys2Proof/Tests/Slice0.lean ====
section
/-! SUPPORT. Tests whose expected results stand in spec/, the smoke tests of the well-formedness checks, and for every statement with hypotheses
a witness that its hypotheses can be met. -/

namespace Sys2Proof.Tests

open Sys2Proof Sys2Proof.Machine

/-! ### Small states -/

/-- The state after a command; the state itself where the command stops. -/
def after (c : Instr) (s : State) : State :=
  match exec c s with
  | .next t => t
  | _ => s

/-- A belt that stands at a position, both encoder lines accepted low. -/
def belt (position hwm : Pos) : State :=
  { State.reset with bpu := { State.reset.bpu with
    position := position
    hwm := hwm
    encA := { accepted := some false, run := false, count := 0 }
    encB := { accepted := some false, run := false, count := 0 } } }

/-- One outlet's state after reset, changed. -/
def outlet0 (f : Outlet → Outlet) : State := State.reset.withOutlet 0 (f (State.reset.outlet 0))

/-- A record in slot 7 of generation 2, stamped 1,000. -/
def plate (state : RecordState) : Record :=
  { slot := 7, gen := 2, number := 40, stamp := 1000, length := 100, cls := 4, key := 2, state := state
    flags := { audit := false, amended := false, stampClamped := false, rerouted := false }
    cluster := none, route := none, lastRefusal := none, carry := none, waypoint := none }

/-- A record in slot 8 of generation 2, stamped 1,060. -/
def saucer (state : RecordState) : Record := { plate state with slot := 8, number := 41, stamp := 1060, length := 50 }

/-- A route to outlet 0 with 3 units. -/
def via (f : Pos) : Route := { outlet := 0, entry := 10, firePoint := f, units := 3 }

/-- A state with these live records. -/
def withTable (s : State) (rs : List Record) : State := { s with tc := { s.tc with records := rs } }

/-- The link ACTIVE at E = 40 and L = 80. -/
def active (s : State) : State := { s with ilc := { s.ilc with link := .active, e := 40, l := 80 } }

/-- SERVING. -/
def serving (s : State) : State := { s with service := .serving }

/-- The last tick has brought an event about. -/
def coming (e : Event) (s : State) : State := { s with due := [e] }

/-! ### Well-formed commands -/

theorem test_wf_join : Instr.wellFormed (.join 1) = true ∧ Instr.wellFormed (.join 2) = false := by decide

theorem test_wf_byte : Instr.wellFormed (.receivedByte (byteLevels 0xA5)) = true ∧ Instr.wellFormed (.receivedByte []) = false := by decide

theorem test_wf_port : Instr.wellFormed (.badPortFrame [0x01] 0) = true ∧ Instr.wellFormed (.badPortFrame [] 0) = false
    ∧ Instr.wellFormed (.badPortFrame [0x5A] 0) = false ∧ Instr.wellFormed (.badPortFrame [0x01] 8) = false := by decide

/-! ### Bytes that spec/ spells out -/

/-- No table word spells a command. -/
theorem test_no_word : decodeTableWord 0 0 = none ∧ (State.reset.withFetchWord 8 1).pending = [] := ⟨rfl, rfl⟩

/-- R136: the two bytes 0x01, 0x00 give 0x15. -/
theorem test_crc : crc8 [0x01, 0x00] = 0x15 := by decide +kernel

/-- spec/11, KEEPALIVE: type 0x02, length 0, and its CRC by hand: 0x02 0x00 gives 0x2A. -/
theorem test_keepalive_frame : linkFrame 0x02 [] = [0xA5, 0x02, 0x00, 0x2A] := by decide +kernel

/-- spec/11, QUERY STATUS and NEXT TRACK's two lengths. -/
theorem test_requests : decodeRequest 0x01 [] = some .queryStatus ∧ decodeRequest 0x41 [] = some (.nextTrack none)
    ∧ decodeRequest 0x41 [0x00, 0x72] = some (.nextTrack (some 114)) ∧ decodeRequest 0x41 [0x00] = none := by decide

/-- R135, spec/11: the payload of NOTICE 40 of spec/10, item P: stamp 1,000,000, length 1,000, class 4, key 2. -/
theorem test_notice_bytes :
    decodeIntake 0x03 [40, 0x0F, 0x42, 0x40, 0x03, 0xE8, 4, 2] = some (.notice 40 1000000 1000 4 2) := by decide

/-- R134: the levels of 0xA5 and back: a start bit, the data bits with the least significant first, a stop bit. -/
theorem test_byte_levels : byteLevels 0xA5 = [false, true, false, true, false, false, true, false, true, true]
    ∧ byteOfBits [true, false, true, false, false, true, false, true] = 0xA5 := by decide

/-- R134: a start level at the place of the stop bit is a byte error, here within a frame, which it ends bad (R138). -/
theorem test_byte_error :
    let s := { State.reset with ilc := { State.reset.ilc with assembler := .type } }
    (after (.receivedByte [false, true, true, true, true, true, true, true, true, false]) s).tau.device.badFrames = 1
      ∧ (after (.receivedByte [false, true, true]) s).ilc.rx = .byte [true, true] := by decide +kernel

/-- R16: BELT is raised by the tick that reached STALL_TIME, whatever STALL_TIME has been set to since. -/
theorem test_stall_stands :
    let s := coming .stall { State.reset with bpu := { State.reset.bpu with stallTimer := 2000 }, params := { State.reset.params with stallTime := 10000 } }
    (after .stall s).tau.latches = 0x04 := by decide +kernel

/-! ### Figures that spec/ works out -/

/-- spec/10, The line at the start: at V = 1,280 and W = 50 the lead of 60 ms is 96 and that of 40 ms 64; 150 ms are 240 and 140 ms 224. -/
theorem test_distance : ([60, 40, 150, 140].map ({ State.reset with bpu := { State.reset.bpu with v := 1280 } } : State).distance) = [96, 64, 240, 224] := by
  decide

/-- spec/10, Cluster A, Audit selection, K and C routed: 0x716, 0xE2C, 0xC58, 0x8B1. -/
theorem test_sampler : advanceSampler 0x716 = 0xE2C ∧ advanceSampler 0xE2C = 0xC58 ∧ advanceSampler 0xC58 = 0x8B1 := by decide

/-- spec/10, Audit selection: at AUDIT_RATE 3 the sampler selects at 0xC58 and not at 0xE2C or 0x8B1. -/
theorem test_selects : selects 3 0xC58 = true ∧ selects 3 0xE2C = false ∧ selects 3 0x8B1 = false := by decide

/-- R13: V = 1,280 stands with M = 80, and the largest V with the largest M. -/
theorem test_speed : nextV 1280 80 = 1280 ∧ nextV 65520 4095 = 65520 ∧ nextV 15 0 = 0 ∧ nextV 16 0 = 14 := by decide

/-- R86: a trim is a signed value, clamped to −128. -/
theorem test_trim : clampTrim (BitVec.toInt (0xFFFF38 : BitVec 24)) = -128 := by decide

/-- spec/10, The items: the tag of P is 114, and P and S overlap, while D overlaps neither. -/
theorem test_overlap : Tag.toNat { slot := 7, gen := 2 } = 114
    ∧ overlaps 20 { plate .pending with stamp := 1000000, length := 1000 } { plate .pending with stamp := 1000600, length := 500 } = true
    ∧ overlaps 20 { plate .pending with stamp := 1000600, length := 500 } { plate .pending with stamp := 1002000, length := 1000 } = false := by decide

/-- spec/10, Cluster A: the span of P and S is 1,100 and the centre offset 550. -/
theorem test_span : span 1000000 [{ plate .pending with stamp := 1000000, length := 1000 }, { plate .pending with stamp := 1000600, length := 500 }] = 1100
    ∧ centre 1100 = 550 := by decide

/-! ### One step each -/

/-- R5: the position wraps. -/
theorem test_wrap : (after (.encoderStep true false) (belt 16777215 16777215)).bpu.position = 0
    ∧ (after (.encoderStep true false) (belt 16777215 16777215)).bpu.hwm = 0 := by decide +kernel

/-- R1: the third sample that differs is accepted and is a step. -/
theorem test_filter : (after (.encoderSample true false) { belt 5 5 with bpu := { (belt 5 5).bpu with encA := { accepted := some false, run := false, count := 2 } } }).bpu.position = 6 := by
  decide +kernel

/-- spec/10, A's stroke: a passage confirms the set; committed falls by 4 to 3, fill rises by 4 to 24, and the records' slots are FREE. -/
theorem test_confirm :
    let s := withTable (outlet0 (fun x => { x with
      fill := 20, committed := 7, rack := .opened, rackKey := some 2, eyeFilter := { accepted := some false, run := false, count := 0 }
      strokeSet := some { members := [{ slot := 7, gen := 2 }, { slot := 8, gen := 2 }], units := 4 } })) [plate .fired, saucer .fired]
    let t := after (.passage 0) s
    (t.outlet 0).fill = 24 ∧ (t.outlet 0).committed = 3 ∧ t.tc.records = [] ∧ (vget t.tau.keys 2).delivered = 2
      ∧ (vget t.tau.outlets 0).items = 2 ∧ (vget t.tau.outlets 0).units = 4 ∧ (t.outlet 0).rack = .opened := by decide +kernel

/-- spec/10, K confirmed at a closing rack: SWAP_READY, RACK raised, the lamp STEADY. -/
theorem test_closing :
    let s := withTable (outlet0 (fun x => { x with
      fill := 12, committed := 3, rack := .closing, rackKey := some 0, eyeFilter := { accepted := some false, run := false, count := 0 }, missRun := 1
      strokeSet := some { members := [{ slot := 7, gen := 2 }], units := 3 } })) [plate .fired]
    let t := after (.passage 0) s
    (t.outlet 0).rack = .swapReady ∧ (t.outlet 0).fill = 15 ∧ (t.outlet 0).missRun = 0 ∧ t.tau.latches = 0x01 ∧ (t.outlet 0).lamp = .steady := by
  decide +kernel

/-- spec/10, A rack pulled: fill above 0 counts the rack exchanged under its key and outlet. -/
theorem test_removal :
    let s := outlet0 (fun x => { x with fill := 24, rack := .opened, rackKey := some 2, rackFilter := { accepted := some true, run := true, count := 0 } })
    let t := after (.rackRemoval 0) s
    (t.outlet 0).rack = .absent ∧ (t.outlet 0).fill = 0 ∧ (vget t.tau.keys 2).racks = 1 ∧ (vget t.tau.outlets 0).racks = 1 ∧ t.tau.latches = 0 := by
  decide +kernel

/-- R140, R147, R148: a JOIN takes the link to SYNCING, and its beacon carries credit limit 0. -/
theorem test_join : (after (.join 1) State.reset).ilc.link = .syncing
    ∧ (after (.join 1) (belt 1000 1000)).ilc.tx = .sending [0xA5, 0x81, 0x04, 0x00, 0x03, 0xE8, 0x00, crc8 [0x81, 0x04, 0x00, 0x03, 0xE8, 0x00]] none := by
  decide +kernel

/-- R163: START SERVICE before the first commit is answered NO_PLAN. -/
theorem test_no_plan : (after .startService State.reset).sp.response = some { status := .noPlan, data := [] } := by decide +kernel

/-- R152, R153: number 42 at E = 40 and L = 80 counts a gap of 2, and E becomes 43; in STANDBY it is refused. -/
theorem test_gap : (after (.notice 42 0 10 0 0) (active State.reset)).ilc.e = 43
    ∧ (after (.notice 42 0 10 0 0) (active State.reset)).tau.device.gapTotal = 2
    ∧ (after (.notice 42 0 10 0 0) (active State.reset)).tau.device.refused = 1 := by decide +kernel

/-! ### Witnesses: states and operands that meet the hypotheses of each statement, at the boundaries of its clauses -/

theorem witness_StepTakesTheFrontCommand : State.reset.pending = [] := rfl

/-- The three ways of an accepted line at a filter length of 3, and both ways of an acquisition. -/
theorem witness_EncoderSampleFiltersEachLine (f : Filter) : State.reset.params.encFilter = 3
    ∧ (f = { accepted := some false, run := false, count := 1 } → f.accepted = some false ∧ true ≠ false ∧ f.count + 1 < 3)
    ∧ (f = { accepted := some false, run := false, count := 2 } → f.accepted = some false ∧ true ≠ false ∧ 3 ≤ f.count + 1)
    ∧ (f = { accepted := none, run := true, count := 1 } → f.accepted = none ∧ (if f.run = true ∧ 0 < f.count then f.count + 1 else 1) < 3)
    ∧ (f = { accepted := none, run := true, count := 2 } → f.accepted = none ∧ 3 ≤ (if f.run = true ∧ 0 < f.count then f.count + 1 else 1))
    ∧ State.reset.bpu.encA.accepted = none := by
  refine ⟨rfl, ?_, ?_, ?_, ?_, rfl⟩ <;> rintro rfl <;> decide

/-- A sample that is accepted as a change, one that changes no accepted level, and lines in acquisition. -/
theorem witness_EncoderSample_steps :
    let s := { belt 5 5 with bpu := { (belt 5 5).bpu with encA := { accepted := some false, run := false, count := 2 } } }
    (s.bpu.encA.accepted, s.bpu.encB.accepted) = (some false, some false)
      ∧ (let t := after (.encoderSample true false) s; (t.bpu.encA.accepted, t.bpu.encB.accepted) = (some true, some false))
      ∧ (let t := after (.encoderSample true false) (belt 5 5); (t.bpu.encA.accepted, t.bpu.encB.accepted) = ((belt 5 5).bpu.encA.accepted, (belt 5 5).bpu.encB.accepted))
      ∧ State.reset.bpu.encA.accepted = none ∧ State.reset.bpu.encB.accepted = none := by decide +kernel

theorem witness_ForwardTickMovesThePosition :
    let s := belt 16777215 16777215
    s.bpu.encA.accepted = some false ∧ s.bpu.encB.accepted = some false
      ∧ (false, false, true, false) ∈ (if s.params.encInvert then reverseRows else forwardRows)
      ∧ ((0 : Pos) - 0).toNat ≤ s.params.reverseAllow ∧ (∀ r ∈ s.tc.records, r.waypoint ≠ some 0) := by decide

/-- Behind the HWM by 401 − 1 ticks, at the allowance exactly. -/
theorem witness_ReverseTicksAndIllegalSteps :
    let s := belt 1 400
    s.bpu.encA.accepted = some false ∧ s.bpu.encB.accepted = some false
      ∧ (false, false, false, true) ∈ (if s.params.encInvert then forwardRows else reverseRows)
      ∧ (s.bpu.hwm - (s.bpu.position - 1)).toNat ≤ s.params.reverseAllow := by decide

theorem witness_ReverseTicksAndIllegalSteps_illegal :
    (belt 0 0).bpu.encA.accepted = some (!true) ∧ (belt 0 0).bpu.encB.accepted = some (!true) ∧ (belt 0 0).bpu.errorLevel ≠ 15 := by decide

/-- One tick past the allowance. -/
theorem witness_FailsafeEntryGivesUpEveryRecord :
    (belt 0 400).service ≠ .failsafe ∧ (belt 0 400).tau.bounded ∧ (belt 0 400).bpu.reverseExcess = false
      ∧ (false, false, false, true) ∈ (if (belt 0 400).params.encInvert then forwardRows else reverseRows)
      ∧ (belt 0 400).params.reverseAllow < ((belt 0 400).bpu.hwm - ((belt 0 400).bpu.position - 1)).toNat := by decide +kernel

/-- Error level 15, and both faults in FAILSAFE. -/
theorem witness_FailsafeEntry_illegal :
    let u := { belt 0 0 with bpu := { (belt 0 0).bpu with errorLevel := 15 } }
    let f := { belt 0 400 with service := .failsafe, bpu := { (belt 0 400).bpu with errorLevel := 15 } }
    u.bpu.encA.accepted = some false ∧ u.bpu.encB.accepted = some false ∧ u.service ≠ .failsafe ∧ u.tau = State.reset.tau ∧ true = !false
      ∧ u.bpu.errorLevel = 15
      ∧ f.bpu.encA.accepted = some false ∧ f.bpu.encB.accepted = some false ∧ f.service = .failsafe ∧ f.bpu.reverseExcess = false
      ∧ (false, false, false, true) ∈ (if f.params.encInvert then forwardRows else reverseRows)
      ∧ f.params.reverseAllow < (f.bpu.hwm - (f.bpu.position - 1)).toNat ∧ f.bpu.errorLevel = 15 := by decide +kernel

/-- Both events come about, a window that a write of W has ended, and neither. -/
theorem witness_SpeedWindowAndStallAtTheirFigures :
    let s := coming .windowExpiry { belt 0 0 with bpu := { (belt 0 0).bpu with windowTimer := 50 } }
    let u := coming .stall { belt 0 0 with bpu := { (belt 0 0).bpu with stallTimer := 2000 } }
    (Event.windowExpiry ∈ s.due ∧ 0 < s.bpu.windowTimer) ∧ (Event.stall ∈ u.due ∧ u.bpu.stallRaised = false)
      ∧ ¬0 < (after (.setParam 3 50) s).bpu.windowTimer ∧ Event.windowExpiry ∉ u.due ∧ Event.stall ∉ s.due := by decide +kernel

/-- No leftover event, one that stands, and one that does not; an accepted eye and one in acquisition. -/
theorem witness_MillisecondTickCountsEveryTimer : State.reset.due = []
    ∧ (coming .stall State.reset).due = .stall :: [] ∧ (coming .stall State.reset).stands .stall = true ∧ (coming .beacon State.reset).stands .beacon = false
    ∧ ((outlet0 (fun x => { x with eyeFilter := { accepted := some true, run := true, count := 0 } })).outlet 0).eyeFilter.accepted = some true
    ∧ (State.reset.outlet 0).eyeFilter.accepted = none := by decide

theorem witness_StrokeAndRecoveryEndAtTheirFigures :
    let s := coming (.strokeEnd 0) (outlet0 (fun x => { x with paddle := .stroke, strokeFigure := 80, strokeTimer := 80 }))
    let u := coming (.recoveryEnd 0) (outlet0 (fun x => { x with
      paddle := .recover, recoverFigure := 0, recoverTimer := 1, homeFilter := { accepted := some true, run := true, count := 0 } }))
    (Event.strokeEnd 0 ∈ s.due ∧ (s.outlet 0).paddle = .stroke ∧ (s.outlet 0).strokeFigure ≤ (s.outlet 0).strokeTimer)
      ∧ (Event.recoveryEnd 0 ∈ u.due ∧ (u.outlet 0).paddle = .recover ∧ 1 ≤ (u.outlet 0).recoverTimer
        ∧ (u.outlet 0).recoverFigure ≤ (u.outlet 0).recoverTimer ∧ (u.outlet 0).homeFilter.accepted = some true)
      ∧ Event.strokeEnd 0 ∉ u.due ∧ Event.recoveryEnd 0 ∉ s.due := by decide

theorem witness_HomeTimeoutFaultsThePaddle :
    let s := coming (.homeTimeout 0) (outlet0 (fun x => { x with paddle := .recover, homeFigure := 250, recoverTimer := 250 }))
    Event.homeTimeout 0 ∈ s.due ∧ (s.outlet 0).paddle = .recover ∧ (s.outlet 0).homeFigure ≤ (s.outlet 0).recoverTimer
      ∧ (s.outlet 0).homeFilter.accepted ≠ some true ∧ s.noneWaiting 0 := by decide

/-- A level accepted in acquisition, one already accepted, and both in RECOVER past the figures. -/
theorem witness_StrokeAndRecoveryEnd_home : (State.reset.outlet 0).homeFilter.accepted ≠ some true
    ∧ ((outlet0 (fun x => { x with homeFilter := { accepted := some true, run := true, count := 0 } })).outlet 0).homeFilter.accepted = some true
    ∧ (let x := (outlet0 (fun x => { x with paddle := .recover, recoverFigure := 60, homeFigure := 250, recoverTimer := 250 })).outlet 0
      x.paddle = .recover ∧ 1 ≤ x.recoverTimer ∧ x.recoverFigure ≤ x.recoverTimer ∧ x.homeFigure ≤ x.recoverTimer) := by decide

/-- A set of one record whose confirm window has run out, at a miss run of 1 and at one of 2. -/
def missed (run : Nat) : State :=
  withTable (coming (.confirmExpiry 0) (outlet0 (fun x => { x with
    rack := .opened, committed := 3, missRun := run, confirmTimer := 400, windowFigure := 400
    strokeSet := some { members := [(plate .fired).tag], units := 3 } }))) [{ plate .fired with route := some (via 900) }]

/-- Below the limit with the end point ahead and reached, and at the limit with the paddle already FAULTED. -/
theorem witness_AMissCarriesTheSetAndMayFaultThePaddle :
    let set : StrokeSet := { members := [(plate .fired).tag], units := 3 }
    let faulted := (missed 2).withOutlet 0 { (missed 2).outlet 0 with paddle := .faulted }
    let gone := { missed 1 with bpu := { (missed 1).bpu with position := (missed 1).endPoint (plate .fired) } }
    (∀ s ∈ [missed 1, faulted, gone], Event.confirmExpiry 0 ∈ s.due ∧ (s.outlet 0).strokeSet = some set ∧ (s.outlet 0).windowFigure ≤ (s.outlet 0).confirmTimer
      ∧ s.tableLaw ∧ s.tau.bounded ∧ (∃ r ∈ s.tc.records, set.members.contains r.tag)
      ∧ (∀ r ∈ s.tc.records, set.members.contains r.tag → r.route = some { outlet := 0, entry := 10, firePoint := 900, units := 3 }))
      ∧ ((missed 1).outlet 0).missRun + 1 < (missed 1).params.missLimit ∧ (faulted.outlet 0).paddle = .faulted
      ∧ (missed 1).endedOf (missed 1).tc.records = [] ∧ gone.endedOf gone.tc.records = set.members := by decide +kernel

/-- The limit reached at a paddle that strokes and at one that does not, with the books in order. -/
theorem witness_AMiss_limit :
    let stroke := (missed 2).withOutlet 0 { (missed 2).outlet 0 with paddle := .stroke }
    (∀ s ∈ [missed 2, stroke], s.booksCheck = true ∧ s.endsAhead s.bpu.position s.tc.records ∧ Event.confirmExpiry 0 ∈ s.due ∧ (s.outlet 0).strokeSet ≠ none
      ∧ (s.outlet 0).windowFigure ≤ (s.outlet 0).confirmTimer ∧ s.params.missLimit ≤ min 15 ((s.outlet 0).missRun + 1) ∧ (s.outlet 0).paddle ≠ .faulted)
      ∧ (stroke.outlet 0).paddle = .stroke ∧ ((missed 2).outlet 0).paddle ≠ .stroke ∧ Event.confirmExpiry 0 ∉ State.reset.due := by decide +kernel

theorem witness_RackStages_arrival : (State.reset.outlet 0).rackFilter.accepted ≠ some true
    ∧ ((outlet0 (fun x => { x with rackFilter := { accepted := some true, run := true, count := 0 } })).outlet 0).rackFilter.accepted = some true := by decide

theorem witness_RackRemovalClearsTheStation :
    let s := outlet0 (fun x => { x with rackFilter := { accepted := some true, run := true, count := 0 }, rack := .opened, rackKey := some 2, fill := 24 })
    (s.outlet 0).rackFilter.accepted = some true ∧ s.tau.bounded ∧ (s.outlet 0).strokeSet = none ∧ s.noneWaiting 0
      ∧ (State.reset.outlet 0).rackFilter.accepted ≠ some true := by decide +kernel

/-- The cluster of a plate and a saucer, FIRED at outlet 0. -/
def firedPair : List Record :=
  [{ plate .fired with cluster := some (.leader 2), route := some (via 900) },
   { saucer .fired with cluster := some (.member (plate .fired).tag), route := some { via 900 with units := 1 } }]

/-- Outlet 0 holds that cluster as its stroke set. -/
def holding (s : State) : State :=
  withTable (s.withOutlet 0 { s.outlet 0 with
    rackFilter := { accepted := some true, run := true, count := 0 }, eyeFilter := { accepted := some false, run := false, count := 0 }
    rack := .opened, rackKey := some 2, committed := 4
    strokeSet := some { members := [(plate .fired).tag, (saucer .fired).tag], units := 4 } }) firedPair

theorem witness_RackRemoval_strokeSet :
    let s := holding State.reset
    let ts := [(plate .fired).tag, (saucer .fired).tag]
    (s.outlet 0).rackFilter.accepted = some true ∧ s.noneWaiting 0 ∧ (s.outlet 0).strokeSet = some { members := ts, units := 4 }
      ∧ (s.outlet 0).fill = 0 ∧ s.tableLaw ∧ s.wholeClusters ts ∧ (∀ j, (s.outlet j).latest = none) ∧ s.tau.bounded := by decide +kernel

/-- A DUE record waits at the outlet of the stroke set, whose rack holds 24 units. -/
theorem witness_RackRemoval_waiting :
    let d := { plate .due with slot := 2, route := some (via 4990), waypoint := some 5000 }
    let h := holding State.reset
    let s := withTable (h.withOutlet 0 { h.outlet 0 with fill := 24, committed := 7, request := some (.deadline [d.tag] 5000 3) }) (firedPair ++ [d])
    s.booksLaw ∧ (s.outlet 0).rackFilter.accepted = some true
      ∧ (s.outlet 0).strokeSet = some { members := [(plate .fired).tag, (saucer .fired).tag], units := 4 } ∧ s.endsAhead s.bpu.position s.tc.records
      ∧ (∀ j, (s.outlet j).latest = none) ∧ s.tau.bounded ∧ s.clustersAt 0 = [d.tag] :=
  ⟨State.booksLaw_of_check (by decide +kernel), by decide +kernel⟩

theorem witness_RackStagesFollowArrivalPressCloseAndReopen :
    let at' (r : RackState) (b : Option Bool) := (outlet0 (fun x => { x with rack := r, buttonFilter := { accepted := b, run := false, count := 0 } })).outlet 0
    (15 : Byte).toNat = (15 : OutletNo).val ∧ (at' .opened (some false)).buttonFilter.accepted = some false
      ∧ (at' .opened (some true)).buttonFilter.accepted = some true ∧ (at' .opened none).buttonFilter.accepted = none
      ∧ State.reset.sp.resetHold = false ∧ (at' .absent none).rack = .absent ∧ (at' .full none).rack = .full ∧ (at' .closing none).rack = .closing := by decide

theorem witness_StrayPassageTakesFreeRoomAlone :
    let at' (b : Option Bool) := (outlet0 (fun x => { x with eyeFilter := { accepted := b, run := false, count := 0 } })).outlet 0
    (at' (some false)).strokeSet = none ∧ (at' (some false)).eyeFilter.accepted = some false ∧ (at' (some true)).eyeFilter.accepted = some true
      ∧ (at' none).eyeFilter.accepted = none := by decide

theorem witness_PassageConfirmsTheStrokeSet :
    let s := holding State.reset
    let ts := [(plate .fired).tag, (saucer .fired).tag]
    (s.outlet 0).eyeFilter.accepted = some false ∧ (s.outlet 0).strokeSet = some { members := ts, units := 4 } ∧ s.tableLaw ∧ s.wholeClusters ts
      ∧ (∀ j, (s.outlet j).latest = none) ∧ s.tau.bounded ∧ 4 ≤ (s.outlet 0).committed := by decide +kernel

theorem witness_ChuteBlocksAndClears :
    let s := coming (.chuteBlocked 0) (outlet0 (fun x => { x with blockTimer := 1500 }))
    let u := coming (.chuteClear 0) (outlet0 (fun x => { x with blocked := true, clearTimer := 1000 }))
    (Event.chuteBlocked 0 ∈ s.due ∧ (s.outlet 0).blocked = false ∧ s.noneWaiting 0) ∧ (Event.chuteClear 0 ∈ u.due ∧ (u.outlet 0).blocked = true)
      ∧ Event.chuteBlocked 0 ∉ u.due ∧ Event.chuteClear 0 ∉ s.due := by decide

/-- The acceptance test's premises name the span, the lead, the cycle distance and the fire point: a lone record of length 100 at V = 0. -/
theorem witness_AcceptanceTestGivesTheFirstFailure :
    let s := State.reset
    let ms := [plate .pending]
    (∀ r ∈ ms, (plus r.stamp r.length - 1000).toNat ≤ 100) ∧ (∃ r ∈ ms, (plus r.stamp r.length - 1000).toNat = 100)
      ∧ (∀ t ∈ [(s.outlet 0).fields.latency, (s.outlet 0).fields.strokeTime + (s.outlet 0).fields.recoverTime],
          0 = min 4095 ((s.bpu.v * t + 8 * s.params.window) / (16 * s.params.window)))
      ∧ (((1050 : Pos).toNat : Int) = (((1000 : Pos).toNat : Int) + ((s.outlet 0).fields.position : Int) + ((((100 + 1) / 2 : Nat)) : Int)
          + (s.outlet 0).fields.trim - 0) % 16777216) := by decide

/-- A belt one tick before a waypoint, with one lone record, its class headed by an entry. -/
def beforeTick (p : Pos) (r : Record) (e : RouteEntry) : State :=
  let s := withTable (belt p p) [r]
  { s with rd := { s.rd with bank0 :=
    { classes := s.rd.bank0.classes.set 4 { weight := 3, head := some 255, auditEnable := true, auditHead := none }
      routes := s.rd.bank0.routes.set 255 e } } }

/-- The premises that every lone record at a forward tick shares. -/
theorem beforeTick_plain (p : Pos) (r : Record) (e : RouteEntry) (h : r.cluster = none) (w : r.waypoint = some (p + 1)) :
    (beforeTick p r e).plainTick true false ∧ (beforeTick p r e).tableLaw ∧ (beforeTick p r e).loneAt r ((beforeTick p r e).bpu.position + 1) := by
  refine ⟨⟨⟨false, false, rfl, rfl, List.mem_cons_self⟩, .inr ?_⟩, List.nodup_singleton _, ?_⟩
  · simp [State.moved, beforeTick, withTable, belt]
  · refine ⟨List.mem_singleton.mpr rfl, h, w, ?_⟩
    intro q hq hne
    exact absurd (by rw [List.mem_singleton.mp hq]) hne

/-- Each way a decision can start and end, at the last index of the route table. -/
theorem witness_DecisionPointDecidesALoneRecord :
    let r := { plate .pending with waypoint := some 5000 }
    let s (e : RouteEntry) := beforeTick 4999 r e
    r.cluster = none ∧ r.waypoint = some (4999 + 1) ∧ r.state = .pending ∧ r.route = none ∧ atOrBeyond (4999 + 1) ((s .stop).endPoint r) = false
      ∧ ((s .stop).classEntry r.cls).head = some 255 ∧ ((s .stop).classEntry r.cls).auditHead = none
      ∧ (∀ e ∈ [RouteEntry.stop, .outlet 0 false, .outlet 0 true], vget (s e).rd.activeBank.routes 255 = e)
      ∧ (((s .stop).moved true false).accept 0 r.stamp [r]).isOk = false := by decide +kernel

/-- An outlet that accepts: 5,000 ticks downstream, open, of key 2, at V = 0. -/
theorem witness_DecisionPoint_accepts :
    let r := { plate .pending with waypoint := some 5000 }
    let s := beforeTick 4999 r (.outlet 0 false)
    let x := s.outlet 0
    let open' := s.withOutlet 0 { x with
      enabled := true, rack := .opened, rackKey := some 2, fields := { x.fields with position := 5000, acceptMask := 0x10 } }
    ((open'.moved true false).accept 0 r.stamp [r]).toOption = some 6050 := by decide +kernel

/-- A state one tick before a lone record's decision point, with AUDIT_RATE 0 and its class's entry replaced. -/
def startingAt (e : ClassEntry) : State :=
  let s := beforeTick 4999 { plate .pending with waypoint := some 5000 } .stop
  { s with params := { s.params with auditRate := 0 }, rd := { s.rd with bank0 := { s.rd.bank0 with classes := s.rd.bank0.classes.set 4 e } } }

/-- A start of NONE, and an audit head that the sampler selects at AUDIT_RATE 0. -/
theorem witness_DecisionPoint_starts :
    let r := { plate .pending with waypoint := some 5000 }
    let none' := startingAt { weight := 3, head := none, auditEnable := false, auditHead := some 255 }
    let audit := startingAt { weight := 3, head := none, auditEnable := true, auditHead := some 255 }
    (none'.plainTick true false ∧ none'.tableLaw ∧ none'.loneAt r (none'.bpu.position + 1))
      ∧ (audit.plainTick true false ∧ audit.tableLaw ∧ audit.loneAt r (audit.bpu.position + 1))
      ∧ (none'.classEntry 4).auditEnable = false ∧ (none'.classEntry 4).head = none
      ∧ (audit.classEntry 4).auditEnable = true ∧ (advanceSampler audit.rd.sampler).toNat % 2 ^ audit.params.auditRate = 0
      ∧ (audit.classEntry 4).auditHead = some 255 :=
  ⟨beforeTick_plain 4999 _ .stop rfl rfl, beforeTick_plain 4999 _ .stop rfl rfl, by decide +kernel⟩

theorem witness_FirePointFiresALoneRecord :
    let r := { plate .routed with route := some (via 5000), waypoint := some 5000 }
    let s := beforeTick 4999 r .stop
    r.cluster = none ∧ r.waypoint = some (4999 + 1) ∧ r.state = .routed ∧ r.route = some (via 5000) ∧ (via 5000).firePoint = s.bpu.position + 1
      ∧ (s.outlet 0).fields.lateTolerance ≤ 255 ∧ atOrBeyond (s.bpu.position + 1) (s.endPoint r) = false ∧ s.quiet
      ∧ ((s.outlet 0).paddle = .idle ∧ (s.outlet 0).strokeSet = none ∧ s.aa.slotsInUse < s.params.airBudget)
      ∧ 0 < (s.outlet 0).fields.lateTolerance ∧ 4 ≤ ({ slotsInUse := 4 } : Aa).slotsInUse := by decide +kernel

theorem witness_ALoneRecordIsAbandonedOrEnds :
    let r := { plate .routed with route := some (via 5000), waypoint := some 5000 }
    let d := { plate .due with route := some (via 5000), waypoint := some 5000 }
    let c := { plate .carried with carry := some .noChain, waypoint := some 5000 }
    (∀ q ∈ [r, d, c], q.cluster = none ∧ q.waypoint = some (4999 + 1) ∧ atOrBeyond (4999 + 1) ((beforeTick 4999 q .stop).endPoint q) = false)
      ∧ r.tag ∉ ({ State.reset.outlet 0 with request := some .test } : Outlet).requestMembers
      ∧ d.tag ∈ ({ State.reset.outlet 0 with request := some (.deadline [d.tag] 5000 3) } : Outlet).requestMembers := by decide +kernel

/-- Lone PENDING records in slots 1, 2 and so on. -/
def plates (n : Nat) : List Record := (List.range n).map (fun i => { plate .pending with slot := Fin.ofNat 256 (i + 1) })

/-- The plate and the saucer as one cluster of a state, with routes to outlet 0 and a waypoint. -/
def pair (st : RecordState) (route : Option Pos) (w : Pos) : List Record :=
  let go (u : Nat) := route.map (fun f => { via f with units := u })
  [{ plate st with cluster := some (.leader 2), route := go 3, waypoint := some w },
   { saucer st with cluster := some (.member (plate .pending).tag), route := go 1, waypoint := if st = .pending then none else some w }]

/-- A belt one tick before 5,000 with live records, the route table filled with one entry, and an outlet 0 changed. -/
def beforeAll (rs : List Record) (e : RouteEntry) (f : Outlet → Outlet) : State :=
  let s := withTable (belt 4999 4999) rs
  { s.withOutlet 0 (f (s.outlet 0)) with rd := { s.rd with bank0 :=
    { classes := s.rd.bank0.classes.set 4 { weight := 3, head := some 240, auditEnable := false, auditHead := none }
      routes := Vector.replicate 256 e } } }

/-- The tick of that belt is a plain one. -/
theorem beforeAll_plain (rs : List Record) (e : RouteEntry) (f : Outlet → Outlet) : (beforeAll rs e f).plainTick true false := by
  refine ⟨⟨false, false, rfl, rfl, List.mem_cons_self⟩, .inr ?_⟩
  simp [State.moved, beforeAll, withTable, belt, State.withOutlet]

/-- Books that pass their check, in each state of a list. -/
theorem books_of_check (l : List State) (h : ∀ y ∈ l, y.booksCheck = true) : ∀ y ∈ l, y.booksLaw := fun y hy => State.booksLaw_of_check (h y hy)

/-- A forward tick of lines that stand low, not behind the HWM, in each state of a list. -/
theorem ticks_of_check (l : List State) (h : ∀ y ∈ l, (y.bpu.encA.accepted = some false ∧ y.bpu.encB.accepted = some false ∧ y.params.encInvert = false)
    ∧ (y.moved true false).bpu.reverseExcess = false) : ∀ y ∈ l, y.plainTick true false := by
  intro y hy
  obtain ⟨⟨a, b, i⟩, r⟩ := h y hy
  exact ⟨⟨false, false, a, b, by rw [i]; exact List.mem_cons_self⟩, .inr r⟩

/-- A PENDING cluster of two at its decision point. -/
theorem witness_DecisionPointDecidesAWholeCluster :
    let rs := pair .pending none 5000
    let s := beforeAll rs .stop id
    s.plainTick true false ∧ s.booksLaw ∧ (∃ lead ∈ s.tc.records, lead.tag = (plate .pending).tag ∧ lead.leads ∧ lead.state = .pending)
      ∧ s.membersOf (plate .pending).tag = rs ∧ s.reachesOnly (s.bpu.position + 1) rs ∧ s.endsAhead (s.bpu.position + 1) rs :=
  ⟨beforeAll_plain .., State.booksLaw_of_check (by decide +kernel), ⟨_, List.mem_cons_self, by decide, by intro t h; simp at h, by decide⟩,
    by decide +kernel⟩

/-- R64, R65: chained refusals from 240 pass the end of the table at the sixteenth entry, from 239 they meet the walk's limit, and a JUMP to a JUMP is a double jump. -/
theorem test_walks :
    let s (e : RouteEntry) := beforeAll (pair .pending none 5000) e id
    let walk (e : RouteEntry) (i : RouteIx) := ((s e).walkChain 1000 (pair .pending none 5000) (some i)).1
    walk (.outlet 0 true) 240 = .planCheck .pastEnd 255 ∧ walk (.outlet 0 true) 239 = .planCheck .walkLimit 255
      ∧ walk (.jump 7 false) 3 = .planCheck .doubleJump 7 ∧ walk (.outlet 0 false) 3 = .chainEnd := by decide +kernel

/-- A ROUTED cluster at its fire point with a free slot and with none, with a request waiting elsewhere, behind another request, and a DUE one at its late limit. -/
theorem witness_FirePointAndLateLimitTakeAWholeCluster :
    let rs := pair .routed (some 5000) 5000
    let ds := pair .due (some 4990) 5000
    let s := beforeAll rs .stop (fun x => { x with committed := 4 })
    let elsewhere := { s with outlets := s.outlets.set 5 { s.outlet 5 with paddle := .recover, request := some .test } }
    let busy := beforeAll rs .stop (fun x => { x with committed := 4, request := some .test })
    let due := beforeAll ds .stop (fun x => { x with committed := 4, request := some (.deadline (ds.map Record.tag) 5000 4) })
    (∀ y ∈ [s, elsewhere, busy, due], y.plainTick true false) ∧ (∀ y ∈ [s, elsewhere, busy, due], y.booksLaw)
      ∧ (∀ y ∈ [s, elsewhere, busy, due], y.membersOf (plate .routed).tag = y.tc.records ∧ y.reachesOnly (y.bpu.position + 1) y.tc.records ∧ y.endsAhead (y.bpu.position + 1) y.tc.records)
      ∧ s.quiet ∧ (elsewhere.outlet 5).request ≠ none ∧ (∀ y ∈ [s, elsewhere], (y.outlet 0).request = none ∧ (y.outlet 0).paddle = .idle ∧ (y.outlet 0).strokeSet = none)
      ∧ (busy.outlet 0).request ≠ none ∧ s.aa.slotsInUse < s.params.airBudget ∧ s.params.airBudget ≤ ({ slotsInUse := 4 } : Aa).slotsInUse
      ∧ 0 < (s.outlet 0).fields.lateTolerance ∧ (s.outlet 0).fields.lateTolerance ≤ 255 :=
  ⟨ticks_of_check _ (by decide +kernel), books_of_check _ (by decide +kernel), by decide +kernel⟩

/-- Four lone records with their waypoints at one position, behind a paddle in RECOVER. -/
theorem witness_OneTickTakesWaypointsByKind :
    let e := { plate .carried with slot := 1, carry := some .noChain, waypoint := some 5000 }
    let d := { plate .due with slot := 2, route := some (via 4990), waypoint := some 5000 }
    let f := { plate .routed with slot := 3, route := some { via 5000 with units := 2 }, waypoint := some 5000 }
    let q := { plate .pending with slot := 4, waypoint := some 5000 }
    let s := beforeAll [e, d, f, q] .stop (fun x => { x with committed := 5, paddle := .recover, request := some (.deadline [d.tag] 5000 3) })
    s.plainTick true false ∧ s.booksLaw
      ∧ (∀ r ∈ s.tc.records, r.waypoint = some (s.bpu.position + 1) ↔ r ∈ [e, d, f, q]) ∧ (∀ r ∈ [e, d, f, q], r ∈ s.tc.records ∧ r.cluster = none)
      ∧ s.endsAhead (s.bpu.position + 1) [d, f, q] ∧ (s.outlet 0).paddle ≠ .idle ∧ 0 < (s.outlet 0).fields.lateTolerance
      ∧ (s.outlet 0).fields.lateTolerance ≤ 255 ∧ (5000 : Pos) = s.bpu.position + 1 :=
  ⟨beforeAll_plain .., State.booksLaw_of_check (by decide +kernel), by decide +kernel⟩

/-- Two PENDING records at one decision point, and two ROUTED ones at one fire point of an outlet that waits for its paddle. -/
theorem witness_OneTick_oneKind :
    let leads := (plates 2).map (fun q => { q with waypoint := some 5000 })
    let routed := leads.map (fun q => { q with state := .routed, route := some (via 5000) })
    let s := beforeAll leads .stop id
    let u := beforeAll routed .stop (fun x => { x with committed := 6, paddle := .recover })
    (s.plainTick true false ∧ s.booksLaw) ∧ (u.plainTick true false ∧ u.booksLaw)
      ∧ s.tc.records.filter (fun r => r.waypoint == some (s.bpu.position + 1)) = leads
      ∧ u.tc.records.filter (fun r => r.waypoint == some (u.bpu.position + 1)) = routed
      ∧ (∀ r ∈ leads, r.state = .pending ∧ s.endsAhead (s.bpu.position + 1) (s.membersOf r.tag)) ∧ u.endsAhead (u.bpu.position + 1) routed
      ∧ (∀ r ∈ leads ++ routed, r.cluster = none) ∧ (u.outlet 0).request = none ∧ (u.outlet 0).paddle ≠ .idle :=
  ⟨⟨beforeAll_plain .., State.booksLaw_of_check (by decide +kernel)⟩, ⟨beforeAll_plain .., State.booksLaw_of_check (by decide +kernel)⟩, by decide +kernel⟩

/-- A ROUTED cluster and a DUE record wait at outlet 0, at each of the four losses of acceptance. -/
theorem witness_LossOfAcceptanceReroutesEveryCluster :
    let d := { plate .due with slot := 2, route := some (via 4990), waypoint := some 5000 }
    let s (f : Outlet → Outlet) := beforeAll (pair .routed (some 6000) 6000 ++ [d]) .stop (fun x => f { x with
      fill := 24, committed := 7, enabled := true, request := some (.deadline [d.tag] 5000 3), rackFilter := { accepted := some true, run := true, count := 0 } })
    let late := s (fun x => { x with paddle := .recover, homeFigure := 250, recoverTimer := 250 })
    (s id).booksCheck = true ∧ late.booksCheck = true ∧ (s id).endsAhead (s id).bpu.position (s id).tc.records ∧ (s id).clustersAt 0 = [(plate .routed).tag, d.tag]
      ∧ Event.chuteBlocked 0 ∈ (coming (.chuteBlocked 0) (s id)).due ∧ ((s id).outlet 0).blocked = false
      ∧ Event.homeTimeout 0 ∈ (coming (.homeTimeout 0) late).due ∧ (late.outlet 0).paddle = .recover ∧ (late.outlet 0).homeFigure ≤ (late.outlet 0).recoverTimer
      ∧ (late.outlet 0).homeFilter.accepted ≠ some true ∧ ((s id).outlet 0).rackFilter.accepted = some true ∧ ((s id).outlet 0).strokeSet = none
      ∧ ((s id).outlet 0).fill = 24 ∧ (0 : Byte).toNat = (0 : OutletNo).val ∧ (s id).sp.resetHold = false ∧ ((s id).outlet 0).enabled = true := by decide +kernel

theorem witness_BadFrameIsCountedAndTheFourthLosesTheLink :
    let s (n : Nat) := { active State.reset with ilc := { (active State.reset).ilc with badRun := n } }
    State.reset.ilc.assembler = .hunt ∧ BadCause.atCrc ≠ .byteError ∧ (s 2).ilc.badRun < 3 ∧ 3 ≤ (s 3).ilc.badRun ∧ (s 3).ilc.link = .active := by decide

theorem witness_ValidFramesFollowTheLinkState :
    State.reset.ilc.link = .offline ∧ (after (.join 1) State.reset).ilc.link = .syncing ∧ State.reset.ilc.link ≠ .syncing := by decide +kernel

/-- Each check at its boundary: a gap of 127 and of 128; credit 128, 0 and 129; an age of 6,001; outside SERVING. -/
theorem witness_NoticeChecksDropInOrder :
    let s := serving { active (belt 10000 10000) with ilc := { (active State.reset).ilc with e := 0, l := 127 } }
    s.ilc.link = .active ∧ 128 ≤ ((128 : Byte) - s.ilc.e).toNat ∧ ((127 : Byte) - s.ilc.e).toNat < 128 ∧ (s.ilc.l - (127 : Byte)).toNat < 1
      ∧ 128 < (((0 : Byte) - 127)).toNat ∧ (s.ilc.l - (0 : Byte)).toNat = 127 ∧ s.service = .serving
      ∧ s.params.noticeAge < (s.bpu.position - 3999).toNat ∧ (s.bpu.position - 3999).toNat ≤ 8388608 ∧ (active State.reset).service ≠ .serving
      ∧ ((128 : Byte) - (0 : Byte)).toNat ≤ 128 := by decide

/-- A part that serves with the link ACTIVE at position 1,100. -/
def taking (rs : List Record) : State := withTable (serving (active (belt 1100 1100))) rs

/-- A notice of number 40, stamped 1,050, in a table whose records leave slot 0 FREE. -/
theorem taking_passes (rs : List Record) (h : ∀ q ∈ rs, q.slot ≠ 0) : (taking rs).PassesChecks 40 1050 0 false 1050 1 0 where
  active := rfl
  serving := rfl
  inOrder := by show ((40 : Byte) - 40).toNat < 128; decide
  credit := by show 1 ≤ ((80 : Byte) - 40).toNat ∧ ((80 : Byte) - 40).toNat ≤ 128; decide
  clampedIff := by show false = decide (((1050 : Pos) - 1100).toNat < 8388608 ∧ (1050 : Pos) ≠ 1100); decide
  stampIs := rfl
  fresh := by show ((1100 : Pos) - 1050).toNat ≤ 6000; decide
  lengthIs := rfl
  free := h
  lowest := fun i hi => absurd hi (Nat.not_lt_zero i.val)

theorem witness_NoticeCreatesALoneRecord :
    (taking []).PassesChecks 40 1050 0 false 1050 1 0 ∧ (taking []).tc.records = [] ++ [] ∧ placedAt 1050 [] []
      ∧ (∀ q ∈ (taking []).tc.records, q.apartFrom (taking []).params.clearance 1050 1)
      ∧ atOrBeyond (taking []).bpu.position (plus 1050 (taking []).params.q) = false :=
  ⟨taking_passes [] (by simp), rfl, ⟨by simp, by simp⟩, by simp [taking, withTable], by decide⟩

/-- One lone record of each state, before and after the notice in belt order. -/
theorem witness_OverlappingNoticeJoinsOrCarries :
    let early := plate .pending
    let late := { plate .pending with stamp := 1060 }
    let fired := { plate .fired with route := some (via 5000) }
    let routed := { plate .routed with route := some (via 5000), waypoint := some 5000 }
    let new := freshRecord 0 0 40 1050 1 6 0 false
    (∀ x ∈ [early, fired, routed], (taking [x]).PassesChecks 40 1050 0 false 1050 1 0 ∧ placedAt 1050 [x] [])
      ∧ (taking [late]).PassesChecks 40 1050 0 false 1050 1 0 ∧ placedAt 1050 [] [late]
      ∧ (∀ x ∈ [early, late, fired, routed], (taking [x]).tableLaw ∧ x.cluster = none ∧ ¬x.apartFrom (taking [x]).params.clearance 1050 1
        ∧ x.leaderTag ≠ new.tag ∧ atOrBeyond (taking [x]).bpu.position (plus x.stamp (taking [x]).params.q) = false
        ∧ atOrBeyond (taking [x]).bpu.position (plus 1050 (taking [x]).params.q) = false
        ∧ atOrBeyond (taking [x]).bpu.position ((taking [x]).endPoint new) = false ∧ atOrBeyond (taking [x]).bpu.position ((taking [x]).endPoint x) = false) := by
  have hp : ∀ x : Record, x.slot = 7 → (taking [x]).PassesChecks 40 1050 0 false 1050 1 0 := fun x h =>
    taking_passes [x] (by intro q hq; rw [List.mem_singleton.mp hq, h]; decide)
  refine ⟨?_, hp _ rfl, ⟨by simp, by decide⟩, ?_⟩
  · intro x hx
    simp only [List.mem_cons, List.not_mem_nil, or_false] at hx
    obtain rfl | rfl | rfl := hx <;> exact ⟨hp _ rfl, by decide, by simp⟩
  · unfold Record.apartFrom
    decide

/-- Q of 0: the decision point of a notice lies at its stamp, behind the position. -/
def atOnce (rs : List Record) : State := { taking rs with params := { (taking rs).params with q := 0 } }

/-- The checks passed at a Q of 0. -/
theorem atOnce_passes (rs : List Record) (h : ∀ q ∈ rs, q.slot ≠ 0) : (atOnce rs).PassesChecks 40 1050 0 false 1050 1 0 := by
  obtain ⟨a, b, c, d, e, f, g, i, j, k⟩ := taking_passes rs h
  exact ⟨a, b, c, d, e, f, g, i, j, k⟩

theorem witness_NoticeCreatesALoneRecord_atOnce :
    let new := { freshRecord 0 0 40 1050 1 6 0 false with waypoint := some 1050 }
    (atOnce []).PassesChecks 40 1050 0 false 1050 1 0 ∧ atOrBeyond (atOnce []).bpu.position (plus 1050 (atOnce []).params.q) = true
      ∧ (∀ q ∈ (atOnce []).tc.records, q.leaderTag ≠ new.tag) ∧ atOrBeyond (atOnce []).bpu.position ((atOnce []).endPoint new) = false :=
  ⟨atOnce_passes [] (by simp), by decide, by simp [atOnce, taking, withTable], by decide⟩

theorem plates_slots : (∀ q ∈ plates 8, q.slot ≠ 0) ∧ ∀ q ∈ plates 7, q.slot ≠ 0 := by decide

/-- Eight records overlapped are too many, seven are not; the decision point ahead, and behind the position. -/
theorem witness_NoticeLinksOrCarriesTheMergedSet :
    let new := freshRecord 0 0 40 1050 1 6 0 false
    (taking (plates 8)).PassesChecks 40 1050 0 false 1050 1 0 ∧ (taking (plates 7)).PassesChecks 40 1050 0 false 1050 1 0
      ∧ (atOnce (plates 7)).PassesChecks 40 1050 0 false 1050 1 0 ∧ (taking (plates 8)).booksLaw ∧ (taking (plates 7)).booksLaw ∧ (atOnce (plates 7)).booksLaw
      ∧ placedAt 1050 (plates 8) [] ∧ placedAt 1050 (plates 7) [] ∧ 8 ≤ (plates 8).length ∧ (plates 7).length ≤ 7
      ∧ (∀ q ∈ plates 8, q.state = .pending ∧ ¬q.apartFrom 20 1050 1) ∧ (taking (plates 8)).endsAhead (taking (plates 8)).bpu.position (new :: plates 8)
      ∧ atOrBeyond (taking (plates 7)).bpu.position (plus 1000 (taking (plates 7)).params.q) = false
      ∧ atOrBeyond (atOnce (plates 7)).bpu.position (plus 1000 (atOnce (plates 7)).params.q) = true
      ∧ (atOnce (plates 7)).endsAhead (atOnce (plates 7)).bpu.position (new :: plates 7) :=
  ⟨taking_passes _ plates_slots.1, taking_passes _ plates_slots.2, atOnce_passes _ plates_slots.2, State.booksLaw_of_check (by decide +kernel),
    State.booksLaw_of_check (by decide +kernel), State.booksLaw_of_check (by decide +kernel), ⟨by decide, by simp⟩, ⟨by decide, by simp⟩, by decide, by decide,
    by unfold Record.apartFrom; decide, by decide +kernel, by decide, by decide, by decide +kernel⟩

/-- A cluster of two in a state at position 1,100, with its units and its request at outlet 0. -/
def paired (st : RecordState) : State :=
  let rs := pair st (if st = .pending then none else some 5000) 5000
  let s := taking rs
  s.withOutlet 0 { s.outlet 0 with
    committed := routeUnits rs
    request := if st = .due then some (.deadline (rs.map Record.tag) 5000 4) else none }

/-- A PENDING record and a cluster of two, ROUTED or DUE, are overlapped together. -/
theorem witness_Notice_mixed (st : RecordState) (h : st = .routed ∨ st = .due) :
    let p := { plate .pending with slot := 9 }
    let rs := pair st (some 5000) 5000
    let s := withTable (paired st) (p :: rs)
    let new := freshRecord 0 0 40 1050 1 6 0 false
    s.PassesChecks 40 1050 0 false 1050 1 0 ∧ s.booksLaw ∧ s.tc.records = [p, { plate st with cluster := some (.leader 2), route := some (via 5000), waypoint := some 5000 }] ++ rs.drop 1
      ∧ placedAt 1050 (p :: rs.take 1) (rs.drop 1) ∧ (∀ q ∈ [p] ++ rs.drop 1, ¬q.apartFrom 20 1050 1) ∧ s.endsAhead s.bpu.position (new :: p :: rs)
      ∧ ∃ q ∈ p :: rs, q.state ≠ .pending := by
  intro p rs s new
  obtain ⟨a, b, c, d, e, f, g, i, j, k⟩ := taking_passes (p :: rs) (by obtain rfl | rfl := h <;> decide)
  refine ⟨⟨a, b, c, d, e, f, g, i, j, k⟩, State.booksLaw_of_check ?_, ?_, ?_, ?_, ?_, ?_⟩
  all_goals obtain rfl | rfl := h
  all_goals (try unfold placedAt); (try unfold Record.apartFrom); decide +kernel

theorem witness_ReviseAmendsTheNewestRecordOfItsNumber :
    let s (r : Record) := active (taking [r])
    let r (f : Pos) := { plate .routed with route := some (via f), waypoint := some f }
    (s (plate .pending)).ilc.link = .active ∧ (∀ q ∈ (s (plate .pending)).tc.records, q.number ≠ 41) ∧ (plate .pending).number = 40
      ∧ (s (plate .due)).tableLaw ∧ ((1163 : Pos) - 1100).toNat < State.reset.params.armMargin ∧ State.reset.params.armMargin ≤ ((1164 : Pos) - 1100).toNat
      ∧ ((1164 : Pos) - 1100).toNat < 8388608 ∧ (s (r 1164)).tc.records = [] ++ r 1164 :: [] ∧ (r 1164).cluster = none := by decide

/-- A cluster of two whose fire point lies 3,900 ticks ahead, its leader and its other member to be amended. -/
theorem witness_Revise_cluster :
    let s := paired .routed
    s.booksLaw ∧ s.ilc.link = .active ∧ s.params.armMargin ≤ ((5000 : Pos) - s.bpu.position).toNat ∧ ((5000 : Pos) - s.bpu.position).toNat < 8388608
      ∧ (∀ r ∈ s.tc.records, r.state = .routed ∧ s.membersOf r.leaderTag = s.tc.records ∧ r.route.map Route.firePoint = some 5000)
      ∧ s.endsAhead s.bpu.position s.tc.records ∧ s.tc.records.map Record.number = [40, 41] :=
  ⟨State.booksLaw_of_check (by decide +kernel), by decide +kernel⟩

theorem witness_LinkTimeoutsGoOffline :
    let s := coming .syncTimeout { State.reset with ilc := { State.reset.ilc with link := .syncing, syncTimer := 200, syncFrames := 1 } }
    let u := coming .linkSilence { State.reset with ilc := { State.reset.ilc with link := .active, silence := 41 } }
    (Event.syncTimeout ∈ s.due ∧ s.ilc.link = .syncing ∧ 0 < s.ilc.syncTimer ∧ s.ilc.syncFrames < 2)
      ∧ (Event.linkSilence ∈ u.due ∧ u.ilc.link = .active ∧ 0 < u.ilc.silence) ∧ Event.syncTimeout ∉ u.due ∧ Event.linkSilence ∉ s.due := by
  decide

/-- A beacon that comes about, none, and the first and last byte of two beacons on LINK_TX. -/
theorem witness_BeaconsCarryPositionAndCredit :
    let s := coming .beacon { State.reset with ilc := { State.reset.ilc with link := .active, beaconTimer := 5, tx := .sending [0xA5] (some [0x81]) } }
    Event.beacon ∈ s.due ∧ s.ilc.link ≠ .offline ∧ 0 < s.ilc.beaconTimer ∧ Event.beacon ∉ State.reset.due ∧ State.reset.ilc.tx = .idle
      ∧ (([0xA5] : List Byte) ++ (some ([0x81] : List Byte)).getD [])[0]? = some 0xA5 ∧ (([0xA5] : List Byte) ++ (some ([0x81] : List Byte)).getD [])[1]? = some 0x81
      ∧ s.linkTx 10 = false ∧ s.linkTx 11 = true ∧ s.linkTx 12 = false ∧ s.linkTx 18 = true ∧ s.linkTx 19 = true ∧ s.linkTx 20 = true := by decide

/-- The line idle, within the data bits and at the stop bit; every state of the assembler. -/
theorem witness_ReceivedBytesAssembleAFrame :
    let s (a : Assembler) := { State.reset with ilc := { State.reset.ilc with assembler := a } }
    let line (bits : List Bool) := { State.reset with ilc := { State.reset.ilc with rx := .byte bits } }
    State.reset.ilc.rx = .idle ∧ (line [true, false, true, false, false, true, false]).ilc.rx = .byte [true, false, true, false, false, true, false]
      ∧ (line ([0, 1, 2, 3, 4, 5, 6, 7].map (0xA5 : Byte).getLsbD)).ilc.rx = .byte [true, false, true, false, false, true, false, true]
      ∧ (s .hunt).ilc.assembler = .hunt ∧ (s .type).ilc.assembler = .type ∧ ((0x03 : Byte), (8 : Byte)) ∈ [((0x01 : Byte), (1 : Byte)), (0x03, 8), (0x04, 4)]
      ∧ ((0x03 : Byte), (7 : Byte)) ∉ [((0x01 : Byte), (1 : Byte)), (0x02, 0), (0x03, 8), (0x04, 4)]
      ∧ (s (.payload 0x04 1 [1, 2, 3])).ilc.assembler = .payload 0x04 1 [1, 2, 3] ∧ (s (.check 0x02 [])).ilc.assembler = .check 0x02 []
      ∧ (0 : Byte) ≠ crc8 [0x02, 0x00] := by decide +kernel

theorem witness_FrameBytesDoWhatTheFrameDoes : intakeType (.notice 255 16777215 65535 63 15) = some 0x03 ∧ State.reset.ilc.rx = .idle
    ∧ State.reset.ilc.assembler = .hunt := by decide

theorem witness_ReadsClockOutTheResponse :
    let s := { State.reset with sp := { State.reset.sp with response := some { status := .ok, data := [1] } } }
    s.sp.resetHold = false ∧ s.sp.response = some { status := .ok, data := [1] } ∧ State.reset.sp.response = none
      ∧ (after (.powerOnReset true) State.reset).sp.resetHold = true ∧ requestCode .queryStatus ≠ none := by decide +kernel

/-- A length byte above 16, a wrong CRC, an unknown code, and a length that QUERY STATUS does not permit. -/
theorem witness_BadPortFramesAreAnsweredAlone :
    State.reset.sp.resetHold = false ∧ ([0x01, 17, 0] : List Byte).head? ≠ some 0x5A ∧ 16 < (([0x01, 17, 0] : List Byte).getD 1 0).toNat
      ∧ ([0x01, 0, 0] : List Byte).getLast? ≠ some (crc8 [0x01, 0]) ∧ (0x26 : Byte).toNat ∉ [0x23, 0x24, 0x25]
      ∧ [0x26, 0, crc8 [0x26, 0]] = (0x26 : Byte) :: (0 : Byte) :: [] ++ [crc8 [0x26, 0]]
      ∧ ((0x01 : Byte).toNat, ([7] : List Byte).length) ∉ [(0x01, 0), (0x03, 1)] ∧ (1 : Byte).toNat = ([7] : List Byte).length := by decide +kernel

theorem witness_RequestFramesRoundTrip : requestCode (.setOutletField 15 11 (.mask 0xFFFFFFFFFFFFFFFF)) ≠ none := by decide

theorem witness_QueriesAnswerFromTheState : State.reset.sp.resetHold = false ∧ 23 ≤ (23 : Byte).toNat ∧ 16 ≤ (16 : Byte).toNat
    ∧ (15 : Byte).toNat = (15 : OutletNo).val := by decide

/-- A standby-only number in and out of STANDBY, a number above 22, and REVERSE_ALLOW at and below the distance behind the HWM. -/
theorem witness_SetParamClampsAndStores :
    State.reset.sp.resetHold = false ∧ 23 ≤ (23 : Byte).toNat ∧ (8 : Byte).toNat ∈ [0, 1, 2, 3, 7, 8] ∧ (serving State.reset).service ≠ .standby
      ∧ State.reset.service = .standby ∧ (22 : Byte).toNat ∉ [0, 1, 2, 3, 7, 8]
      ∧ ((belt 0 5).bpu.hwm - (belt 0 5).bpu.position).toNat ≤ 5 ∧ 4 < ((belt 0 5).bpu.hwm - (belt 0 5).bpu.position).toNat
      ∧ (belt 0 5).bpu.reverseExcess = false := by decide

theorem witness_SetOutletFieldClampsAndStores :
    State.reset.sp.resetHold = false ∧ 15 < (16 : Byte).toNat ∧ 13 < (14 : Byte).toNat ∧ (11 : Byte).toNat = 11 ∧ (10 : Byte).toNat ≠ 11
      ∧ (15 : Byte).toNat = (15 : OutletNo).val ∧ (7 : Byte).toNat ≤ 7 ∧ ((outlet0 (fun x => { x with enabled := true })).outlet 0).enabled = true
      ∧ (State.reset.outlet 0).enabled = false ∧ 7 < (8 : Byte).toNat := by decide

theorem witness_OutletEnableAndDisable :
    State.reset.sp.resetHold = false ∧ 16 ≤ (16 : Byte).toNat ∧ (15 : Byte).toNat = (15 : OutletNo).val ∧ (State.reset.outlet 15).enabled = false
      ∧ ((outlet0 (fun x => { x with enabled := true })).outlet 0).enabled = true ∧ State.reset.noneWaiting 0 := by decide

theorem witness_ClearFaultAndTestStroke :
    let f (b : Option Bool) := (outlet0 (fun x => { x with paddle := .faulted, homeFilter := { accepted := b, run := true, count := 0 } })).outlet 0
    State.reset.sp.resetHold = false ∧ (0 : Byte).toNat = (0 : OutletNo).val ∧ (State.reset.outlet 0).paddle ≠ .faulted ∧ (f none).paddle = .faulted
      ∧ (f none).homeFilter.accepted ≠ some true ∧ (f (some true)).homeFilter.accepted = some true
      ∧ ((outlet0 (fun x => { x with enabled := true })).outlet 0).enabled = true
      ∧ (State.reset.outlet 0).enabled = false ∧ (f none).enabled = false ∧ (State.reset.outlet 0).paddle = .idle
      ∧ (State.reset.outlet 0).request = none ∧ (State.reset.outlet 0).strokeSet = none := by decide

theorem witness_PlanWritesReplaceStagingEntries :
    State.reset.sp.resetHold = false ∧ 63 < (64 : Byte).toNat ∧ 256 < (257 : BitVec 16).toNat ∧ (63 : Byte).toNat = (63 : ClassNo).val
      ∧ (256 : BitVec 16).toNat = (match (none : Option RouteIx) with | some x => x.val | none => 256)
      ∧ 2 < (3 : Byte).toNat ∧ 15 < (16 : BitVec 16).toNat ∧ (15 : BitVec 16).toNat = (15 : OutletNo).val ∧ (255 : BitVec 16).toNat = (255 : RouteIx).val
      ∧ 1 < (2 : Byte).toNat ∧ 63 < (64 : Byte).toNat := by decide

theorem witness_CommitSwapsAndCopiesTheBanks : State.reset.sp.resetHold = false := rfl

theorem witness_ServiceRequestsFollowTheServiceState :
    let s (x : ServiceState) (valid : Bool) (level : Nat) :=
      { State.reset with service := x, rd := { State.reset.rd with planValid := valid }, bpu := { State.reset.bpu with errorLevel := level } }
    State.reset.sp.resetHold = false ∧ (s .serving true 0).service = .serving ∧ (s .draining true 0).service = .draining
      ∧ (s .failsafe false 0).rd.planValid = false ∧ (s .failsafe true 16).rd.planValid = true ∧ 16 ≤ (s .failsafe true 16).bpu.errorLevel
      ∧ (s .standby true 15).bpu.errorLevel < 16 ∧ (s .serving true 0).tc.records = [] ∧ (withTable (s .serving true 0) [plate .pending]).tc.records ≠ [] := by
  decide

theorem witness_ResetTrackingGivesUpEveryRecord : State.reset.sp.resetHold = false ∧ State.reset.tau.bounded := by decide +kernel

theorem witness_LookupsReportRecordsInBeltOrder :
    let s := withTable State.reset [plate .pending, saucer .fired]
    s.sp.resetHold = false ∧ 4095 < (4096 : BitVec 16).toNat ∧ (4095 : BitVec 16).toNat ≤ 4095
      ∧ (∀ r ∈ s.tc.records, r.slot.val * 16 + r.gen.toNat ≠ (4095 : BitVec 16).toNat) ∧ s.tc.records = [] ++ plate .pending :: [saucer .fired]
      ∧ (plate .pending).slot.val * 16 + (plate .pending).gen.toNat = (114 : BitVec 16).toNat ∧ s.tableLaw
      ∧ 1048575 < (1048576 : BitVec 24).toNat ∧ (1048575 : BitVec 24).toNat ≤ 1048575 := by decide

theorem witness_AmendTrackChangesWhatCanStillBeChanged :
    let r (f : Pos) := { plate .routed with route := some (via f), waypoint := some f }
    let s (f : Pos) := taking [r f]
    (s 5000).sp.resetHold = false ∧ 4095 < (4096 : BitVec 16).toNat ∧ 63 < (64 : Byte).toNat ∧ 15 < (16 : Byte).toNat ∧ (1 : Byte).getLsbD 0 = true
      ∧ (0 : Byte).getLsbD 0 = false ∧ (0 : Byte).getLsbD 1 = false ∧ (r 5000).slot.val * 16 + (r 5000).gen.toNat = (114 : BitVec 16).toNat
      ∧ (∀ q ∈ (s 5000).tc.records, q.slot.val * 16 + q.gen.toNat ≠ (115 : BitVec 16).toNat) ∧ (s 5000).tableLaw
      ∧ ((1163 : Pos) - (s 1163).bpu.position).toNat < (s 1163).params.armMargin ∧ (s 1164).params.armMargin ≤ ((1164 : Pos) - (s 1164).bpu.position).toNat
      ∧ ((1164 : Pos) - (s 1164).bpu.position).toNat < 8388608 ∧ (r 1164).cluster = none := by decide

/-- The tags of that cluster are 114 and 130, and the port takes requests. -/
theorem witness_AmendTrack_cluster :
    let s := paired .routed
    s.booksLaw ∧ s.sp.resetHold = false ∧ s.params.armMargin ≤ ((5000 : Pos) - s.bpu.position).toNat ∧ s.endsAhead s.bpu.position s.tc.records
      ∧ s.tc.records.map (fun r => r.slot.val * 16 + r.gen.toNat) = [114, 130] ∧ (1 : Byte).getLsbD 0 = true ∧ (5 : Byte).toNat = (5 : ClassNo).val
      ∧ (15 : Byte).toNat = (15 : KeyNo).val :=
  ⟨State.booksLaw_of_check (by decide +kernel), by decide +kernel⟩

theorem witness_WithdrawTrackRetiresTheRecord :
    let lead := { plate .pending with cluster := some (.leader 2), waypoint := some 5000 }
    let next := { saucer .pending with cluster := some (.member lead.tag) }
    let s := taking [lead, next]
    let lone := taking [{ plate .due with route := some (via 1100), waypoint := some 1120 }]
    s.sp.resetHold = false ∧ 4095 < (4096 : BitVec 16).toNat ∧ lead ∈ s.tc.records ∧ lead.slot.val * 16 + lead.gen.toNat = (114 : BitVec 16).toNat ∧ s.tableLaw
      ∧ (plate .fired).state = .fired ∧ (∀ q ∈ lone.tc.records, q.tag ≠ (plate .due).tag → q.leaderTag ≠ (plate .due).tag)
      ∧ atOrBeyond s.bpu.position (plus next.stamp s.params.q) = false := by decide

/-- The leader and the other member of a PENDING, a ROUTED and a DUE cluster of two, and a new leader's decision point that is reached. -/
theorem witness_WithdrawTrack_cluster :
    let other (s : State) (r : Record) := ((s.membersOf r.leaderTag).filter (fun q => q.tag != r.tag)).head?
    let now := { paired .pending with params := { (paired .pending).params with q := 0 } }
    (∀ s ∈ [paired .pending, paired .routed, paired .due, now], s.booksLaw)
      ∧ (∀ s ∈ [paired .pending, paired .routed, paired .due, now], s.sp.resetHold = false ∧ s.endsAhead s.bpu.position s.tc.records
      ∧ ∀ r ∈ s.tc.records, r.state ≠ .fired ∧ r.cluster ≠ none ∧ ∃ lead ∈ other s r, r.leaderTag ≠ r.tag → lead.tag = r.leaderTag)
      ∧ (∀ r ∈ now.tc.records, atOrBeyond now.bpu.position (plus r.stamp now.params.q) = true)
      ∧ ∀ r ∈ (paired .pending).tc.records, atOrBeyond (paired .pending).bpu.position (plus r.stamp (paired .pending).params.q) = false :=
  ⟨books_of_check _ (by decide +kernel), by decide +kernel⟩

theorem witness_TalliesAndAttentionAreReadAndCleared : State.reset.sp.resetHold = false ∧ 2 < (3 : Byte).toNat ∧ 15 < (16 : Byte).toNat
    ∧ (15 : Byte).toNat = (15 : KeyNo).val ∧ (15 : Byte).toNat = (15 : OutletNo).val := by decide

/-- State.reset meets every law, so every premise of the invariants can be met; a JOIN is a step from there. -/
theorem witness_laws : State.reset.capacityLaw ∧ State.reset.slotLaw ∧ State.reset.tableLaw ∧ State.reset.excessLaw ∧ State.reset.restLaw ∧ State.reset.creditLaw
    ∧ State.reset.rangeLaw ∧ State.reset.tau.bounded ∧ State.reset.booksLaw ∧ State.reset.orderLaw := by
  refine ⟨?_, ?_, ?_, ?_, ?_, ?_, ?_, ?_, State.booksLaw_of_check (by decide +kernel), ?_⟩ <;> decide +kernel

/-- A table of three records, a DUE pair and a PENDING one, in order and with its books right, at a notice. -/
theorem witness_EveryStepKeepsTheBooks :
    let s := taking (pair .due (some 1090) 1110 ++ [{ plate .pending with slot := 9, stamp := 1090 }])
    let u := s.withOutlet 0 { s.outlet 0 with committed := 4, request := some (.deadline ((pair .due none 0).map Record.tag) 1110 4) }
    u.booksLaw ∧ u.orderLaw ∧ u.restLaw ∧ (∀ r ∈ u.tc.records, ahead u.bpu.hwm r.stamp < 8388607)
      ∧ ahead u.bpu.hwm u.bpu.position + u.params.noticeAge < 8388607 := by
  refine ⟨State.booksLaw_of_check (by decide +kernel), ?_, ?_, ?_, ?_⟩ <;> decide +kernel

/-- A tally that is read with clear, and one that is read without. -/
theorem witness_TalliesNeverFallAndPlansStand : State.reset.tau.bounded ∧ (1 : Byte).getLsbD 0 = true ∧ (0 : Byte).getLsbD 0 = false := by decide +kernel

end Sys2Proof.Tests
end

section
/-! PROOFS. The Track Table after power-on reset (spec/02, R53): what an empty table shows, and what POWER_ON_RESET leaves in it. -/

namespace Sys2Proof.Machine

/-! ### Tables of one value -/

@[simp] theorem vget_replicate {α : Type} {n : Nat} (x : α) (i : Fin n) : vget (Vector.replicate n x) i = x := by simp [vget]

/-! ### A Track Table with no live record -/

theorem State.slotRecord_of_records_nil {s : State} (h : s.tc.records = []) (i : Slot) : s.slotRecord i = none := by
  simp [State.slotRecord, h]

theorem State.waypointOrder_of_records_nil {s : State} (h : s.tc.records = []) : s.waypointOrder = [] := by
  simp [State.waypointOrder, h]

theorem State.freeCount_of_records_nil {s : State} (h : s.tc.records = []) : s.freeCount = 256 := by
  simp [State.freeCount, h]

/-- The search for a FREE slot starts at slot 0 (R25). -/
theorem State.freeSlot_of_slotRecord_zero {s : State} (h : s.slotRecord 0 = none) : s.freeSlot = some 0 := by
  have hstart : s.slotRecord (Fin.ofNat 256 0) = none := h
  simp only [State.freeSlot, State.freeSlotFrom, hstart]
  rfl

/-! ### POWER_ON_RESET -/

theorem exec_powerOnReset (csLow : Bool) (s : State) : exec (.powerOnReset csLow) s = .next (s.powerOn csLow) := rfl

@[simp] theorem State.powerOn_records (s : State) (csLow : Bool) : (s.powerOn csLow).tc.records = [] := rfl

@[simp] theorem State.powerOn_gens (s : State) (csLow : Bool) (i : Slot) : vget (s.powerOn csLow).tc.gens i = 0 := vget_replicate 0 i

/-- Settles O2: the reset table holds no record, so its every view is empty, and the search for a FREE slot ends at slot 0, whose generation is 0. -/
theorem powerOnEmptiesTheTrackTable : Obligations.PowerOnEmptiesTheTrackTable := by
  intro csLow s
  have hrec : (s.powerOn csLow).tc.records = [] := s.powerOn_records csLow
  have hslot := State.slotRecord_of_records_nil hrec
  have hfirst : Tag.toNat { slot := 0, gen := vget (s.powerOn csLow).tc.gens 0 } = 0 := by simp [Tag.toNat]
  exact ⟨s.powerOn csLow, exec_powerOnReset csLow s, fun i => ⟨hslot i, s.powerOn_gens csLow i⟩, hrec,
    State.waypointOrder_of_records_nil hrec, State.freeCount_of_records_nil hrec, rfl, rfl, rfl,
    State.freeSlot_of_slotRecord_zero (hslot 0), hfirst⟩

end Sys2Proof.Machine
end

section
/-! PROOFS. The plan commit and the plan status (spec/03, R59, R66, R67): how a request of the port is answered, and what the three requests do to the Route Decider. -/

namespace Sys2Proof.Machine

/-! ### Requests of the port -/

/-- With the reset hold clear, a request is carried out and its response placed; what the port's fields were before does not show (R176, R178). -/
theorem serve_of_resetHold_clear {c : Instr} {body : State → State × Response} {s : State} (h : s.sp.resetHold = false) :
    serve c body s = .next ((body s).1.answered c (body s).2) := by
  rw [serve, h]
  rfl

/-! ### Bytes of an answer -/

@[simp] theorem be_one (v : Nat) : be 1 v = [BitVec.ofNat 8 v] := by simp [be]

@[simp] theorem ofNat_flag (b : Bool) : BitVec.ofNat 8 (flag b) = if b then 1 else 0 := by cases b <;> rfl

/-- The code of a plan check as a byte (R66). -/
theorem CheckKind.ofNat_code (k : CheckKind) :
    BitVec.ofNat 8 k.code = match k with | .walkLimit => (1 : Byte) | .pastEnd => 2 | .doubleJump => 3 := by
  cases k <;> rfl

/-! ### The Route Decider -/

/-- A commit in the terms of its staging bank (R59). -/
theorem Rd.commit_eq {r : Rd} {staging : Bank} (h : staging = if r.active then r.bank0 else r.bank1) :
    r.commit = { r with bank0 := staging, bank1 := staging, active := !r.active, planValid := true } := by
  subst h
  rfl

/-- The five bytes of READ PLAN STATUS (R67). -/
theorem Rd.statusBlock_eq (r : Rd) :
    r.statusBlock = (if r.planValid then 1 else 0) :: (if r.active then 1 else 0) :: (match r.planStatus with
      | none => [0, 0, 0]
      | some c => [match c.kind with | .walkLimit => 1 | .pastEnd => 2 | .doubleJump => 3, BitVec.ofNat 8 c.cls.val, BitVec.ofNat 8 c.entry.val]) := by
  rw [Rd.statusBlock]
  cases r.planStatus with
  | none => simp
  | some c => simp [CheckKind.ofNat_code c.kind]

/-! ### The three requests -/

theorem exec_commitPlan {s : State} (h : s.sp.resetHold = false) :
    exec .commitPlan s = .next (({ s with rd := s.rd.commit } : State).answered .commitPlan (okWith [])) := by
  change execCommitPlan s = _
  rw [execCommitPlan, serve_of_resetHold_clear h]

theorem exec_readPlanStatus {s : State} (h : s.sp.resetHold = false) :
    exec .readPlanStatus s = .next (s.answered .readPlanStatus (okWith s.rd.statusBlock)) := by
  change execReadPlanStatus s = _
  rw [execReadPlanStatus, serve_of_resetHold_clear h]

theorem exec_clearPlanStatus {s : State} (h : s.sp.resetHold = false) :
    exec .clearPlanStatus s = .next (({ s with rd := { s.rd with planStatus := none } } : State).answered .clearPlanStatus (okWith [])) := by
  change execClearPlanStatus s = _
  rw [execClearPlanStatus, serve_of_resetHold_clear h]

/-- Settles O49: each request is answered in the state its body leaves, which for a commit is the committed plan and for the status requests the status as read and as emptied. -/
theorem commitSwapsAndCopiesTheBanks : Obligations.CommitSwapsAndCopiesTheBanks := by
  intro s staging hhold hstaging
  refine ⟨?commit, ?read, exec_clearPlanStatus hhold⟩
  case commit => rw [exec_commitPlan hhold, Rd.commit_eq hstaging, okWith]
  case read =>
    calc exec .readPlanStatus s
      _ = .next (s.answered .readPlanStatus (okWith s.rd.statusBlock)) := exec_readPlanStatus hhold
      _ = _ := congrArg (fun data => Host.Outcome.next (s.answered .readPlanStatus (okWith data))) s.rd.statusBlock_eq

end Sys2Proof.Machine
end

section
/-! PROOFS. START SERVICE and STOP SERVICE (spec/07, R163, R164, R166, R170): what each request does in each service state, and what it answers. -/

namespace Sys2Proof.Machine

/-! ### The answer and the drain check -/

/-- The answer of a service request carried out is the code of the state it leaves (R188). -/
theorem State.serviceAnswer_eq {s : State} {x : ServiceState} (h : s.service = x) : s.serviceAnswer = (s, okWith [BitVec.ofNat 8 x.code]) := by
  rw [State.serviceAnswer, h, be_one]

theorem State.drainCheck_of_records_ne_nil {s : State} (h : s.tc.records ≠ []) : s.drainCheck = s := if_neg fun hc => h hc.2

theorem State.drainCheck_of_draining_empty {s : State} (hdrain : s.service = .draining) (hempty : s.tc.records = []) :
    s.drainCheck = { s with service := .standby, ilc := { s.ilc with l := s.ilc.e } } := if_pos ⟨hdrain, hempty⟩

/-! ### START SERVICE (R163) -/

theorem State.startService_of_serving {s : State} (h : s.service = .serving) : s.startService = (s, okWith [1]) := by
  simp only [State.startService, h]
  exact s.serviceAnswer_eq h

theorem State.startService_of_draining {s : State} (h : s.service = .draining) :
    s.startService = ({ s with service := .serving }, okWith [1]) := by
  simp only [State.startService, h]
  exact State.serviceAnswer_eq rfl

/-- Out of service, both states make the same two checks; only leaving FAILSAFE sets the HWM to the position (R170). -/
theorem State.startService_of_out_of_service {s : State} (h : s.service = .standby ∨ s.service = .failsafe) :
    s.startService =
      if s.rd.planValid = false then (s, refuse .noPlan)
      else if 16 ≤ s.bpu.errorLevel then (s, refuse .range)
      else ({ (if s.service = .failsafe then s.rebase else s) with service := .serving }, okWith [1]) := by
  obtain hstandby | hfailsafe := h
  · simp only [State.startService, hstandby, reduceCtorEq, if_false]
    rw [State.serviceAnswer_eq rfl]
    rfl
  · simp only [State.startService, hfailsafe, if_true]
    rw [State.serviceAnswer_eq rfl]
    rfl

theorem exec_startService {s t : State} {r : Response} (hhold : s.sp.resetHold = false) (h : s.startService = (t, r)) :
    exec .startService s = .next (t.answered .startService r) := by
  change execStartService s = _
  rw [execStartService, serve_of_resetHold_clear hhold, h]

/-! ### STOP SERVICE (R164) -/

/-- Records still live: the table drains, and the drain check finds nothing to do. -/
theorem State.stopService_of_serving_live {s : State} (h : s.service = .serving) (hlive : s.tc.records ≠ []) :
    s.stopService = ({ s with service := .draining }, okWith [2]) := by
  simp only [State.stopService, h]
  rw [State.drainCheck_of_records_ne_nil (s := { s with service := .draining }) hlive]
  exact State.serviceAnswer_eq rfl

/-- On an empty table the stop goes through DRAINING to STANDBY in the same event (R166). -/
theorem State.stopService_of_serving_empty {s : State} (h : s.service = .serving) (hempty : s.tc.records = []) :
    s.stopService = ({ s with service := .standby, ilc := { s.ilc with l := s.ilc.e } }, okWith [0]) := by
  simp only [State.stopService, h]
  rw [State.drainCheck_of_draining_empty (s := { s with service := .draining }) rfl hempty]
  exact State.serviceAnswer_eq rfl

theorem State.stopService_of_draining {s : State} (h : s.service = .draining) : s.stopService = (s, okWith [2]) := by
  simp only [State.stopService, h]
  exact s.serviceAnswer_eq h

theorem State.stopService_of_standby {s : State} (h : s.service = .standby) : s.stopService = (s, okWith [0]) := by
  simp only [State.stopService, h]
  exact s.serviceAnswer_eq h

theorem State.stopService_of_failsafe {s : State} (h : s.service = .failsafe) :
    s.stopService = ({ s.rebase with service := .standby }, okWith [0]) := by
  simp only [State.stopService, h]
  exact State.serviceAnswer_eq rfl

theorem exec_stopService {s t : State} {r : Response} (hhold : s.sp.resetHold = false) (h : s.stopService = (t, r)) :
    exec .stopService s = .next (t.answered .stopService r) := by
  change execStopService s = _
  rw [execStopService, serve_of_resetHold_clear hhold, h]

/-- Settles O50: the port answers each request in the state its body leaves, and the body is split by the service state; out of service a start is split further by its two checks. -/
theorem serviceRequestsFollowTheServiceState : Obligations.ServiceRequestsFollowTheServiceState := by
  rintro s rebased hhold rfl
  refine ⟨fun h => exec_startService hhold (s.startService_of_serving h), fun h => exec_startService hhold (s.startService_of_draining h),
    fun hout => ?outOfService, fun h hlive => exec_stopService hhold (s.stopService_of_serving_live h hlive),
    fun h hempty => exec_stopService hhold (s.stopService_of_serving_empty h hempty),
    fun h => exec_stopService hhold (s.stopService_of_draining h), fun h => exec_stopService hhold (s.stopService_of_standby h),
    fun h => exec_stopService hhold (s.stopService_of_failsafe h)⟩
  case outOfService =>
    have hstart := s.startService_of_out_of_service hout
    refine ⟨fun hplan => ?noPlan, fun hplan hlevel => ?range, ?started⟩
    case noPlan =>
      rw [if_pos hplan] at hstart
      exact exec_startService hhold hstart
    case range =>
      rw [if_neg (by simp [hplan]), if_pos hlevel] at hstart
      exact exec_startService hhold hstart
    case started =>
      rintro hplan hlevel u rfl
      rw [if_neg (by simp [hplan]), if_neg (by omega)] at hstart
      exact exec_startService hhold hstart

end Sys2Proof.Machine
end

section
/-! PROOFS. The lines that follow the state (spec/01, spec/04, spec/05 and spec/09; R15, R107, R108, R112, R202): when each output is asserted. -/

namespace Sys2Proof.Machine

/-! ### The outlets' own lines -/

theorem State.fire_eq_true_iff (s : State) (o : OutletNo) : s.fire o = true ↔ (s.outlet o).paddle = .stroke := beq_iff_eq

/-- The lamp is lit all the time in the steady pattern, in the first half of the cycle in the slow one, and in the first half of each quarter in the fast one (R107). -/
theorem State.lampLit_eq_true_iff (s : State) (o : OutletNo) :
    s.lampLit o = true ↔ (s.outlet o).lamp = .steady ∨ ((s.outlet o).lamp = .slow ∧ s.oc.lampCycle < 500)
      ∨ ((s.outlet o).lamp = .fast ∧ s.oc.lampCycle % 250 < 125) := by
  rw [State.lampLit]
  cases (s.outlet o).lamp <;> simp

/-- The outlets that HOLD looks at are all there are (R108). -/
theorem State.hold_eq_true_iff (s : State) :
    s.hold = true ↔ s.service = .failsafe
      ∨ ∃ j : OutletNo, (s.outlet j).enabled = true ∧ (s.outlet j).fields.holdOnBlock = true ∧ (s.outlet j).blocked = true := by
  simp only [State.hold, Bool.or_eq_true, beq_iff_eq, List.any_eq_true, Bool.and_eq_true, and_assoc, mem_outletNos, true_and]

/-! ### The attention lines -/

/-- A word is other than 0 when it has a bit set. -/
theorem bne_zero_iff_exists_getLsbD {w : Nat} (x : BitVec w) : (x != 0) = true ↔ ∃ i < w, x.getLsbD i = true := by
  have hbit : (x != 0) = true ↔ ∃ i, x.getLsbD i = true := by simp [BitVec.zero_iff_eq_false]
  exact hbit.trans (exists_congr fun _ => (and_iff_right_of_imp BitVec.lt_of_getLsbD).symm)

theorem State.attnA_eq_true_iff (s : State) :
    s.attnA = true ↔ ∃ i < 8, s.tau.latches.getLsbD i = true ∧ s.tau.enables.getLsbD i = true ∧ s.tau.lineMap.getLsbD i = false := by
  refine (bne_zero_iff_exists_getLsbD _).trans (exists_congr fun i => and_congr_right fun hi => ?_)
  simp [hi, and_assoc]

theorem State.attnB_eq_true_iff (s : State) :
    s.attnB = true ↔ ∃ i < 8, s.tau.latches.getLsbD i = true ∧ s.tau.enables.getLsbD i = true ∧ s.tau.lineMap.getLsbD i = true := by
  refine (bne_zero_iff_exists_getLsbD _).trans (exists_congr fun i => and_congr_right fun _ => ?_)
  simp [and_assoc]

/-! ### The belt state -/

theorem State.beltRunning_eq_true_iff (s : State) : s.beltRunning = true ↔ 0 < s.bpu.v := decide_eq_true_iff

/-- Settles O19: line by line; the lamp pattern is R107's table itself. -/
theorem outputLinesFollowTheState : Obligations.OutputLinesFollowTheState := fun s o =>
  ⟨rfl, s.lampLit_eq_true_iff o, s.fire_eq_true_iff o, s.hold_eq_true_iff, s.attnA_eq_true_iff, s.attnB_eq_true_iff, s.beltRunning_eq_true_iff⟩

end Sys2Proof.Machine
end


section
/-! PROOFS. What a command can do, said once: every command but an accepted notice is a chain of changes (`Chain`), each of which either stands aside from
the laws, is a deed of the Track Controller, the Route Decider or the Air Arbiter, or sets one piece of state under the condition that the laws need. -/

namespace Sys2Proof

/-! ### The kinds of command -/

/-- The commands that write the plan (R56, R57, R59). -/
def Instr.writesPlan : Instr → Bool
  | .putClass .. | .putRoute .. | .commitPlan => true
  | _ => false

/-- The commands that clear tallies (R192). -/
def Instr.clearsTallies : Instr → Bool
  | .readTallies _ _ clear => clear.getLsbD 0
  | _ => false

/-- The command that a command's bytes mean: a BAD_PORT_FRAME whose bytes are a request means that request (log 8). -/
def Instr.meant : Instr → Instr
  | .badPortFrame bytes extra =>
    match judgePortFrame bytes extra with
    | .request r => r
    | _ => .badPortFrame bytes extra
  | c => c

/-- The command that resets the part (R207). -/
def Instr.resets : Instr → Bool
  | .powerOnReset _ => true
  | _ => false

/-- The commands that move the belt (R3). -/
def Instr.movesBelt : Instr → Bool
  | .encoderStep .. | .encoderSample .. => true
  | _ => false

end Sys2Proof

namespace Sys2Proof.Machine

/-! ### The kinds of change -/

/-- A change that no law reads: the time base, the lamp cycle, the port, the pins, the events due, the queue, the sampler, the plan status, the latches and
what the intake link holds beside its state, E and L. -/
structure Aside (new old : State) : Prop where
  params : new.params = old.params
  bpu : new.bpu = old.bpu
  tc : new.tc = old.tc
  outlets : new.outlets = old.outlets
  aa : new.aa = old.aa
  service : new.service = old.service
  link : new.ilc.link = old.ilc.link
  e : new.ilc.e = old.ilc.e
  l : new.ilc.l = old.ilc.l
  keyTallies : new.tau.keys = old.tau.keys
  outletTallies : new.tau.outlets = old.tau.outlets
  deviceTally : new.tau.device = old.tau.device
  bank0 : new.rd.bank0 = old.rd.bank0
  bank1 : new.rd.bank1 = old.rd.bank1
  active : new.rd.active = old.rd.active
  planValid : new.rd.planValid = old.rd.planValid

/-- A change of an outlet record that leaves its committed units, its stroke set and its deadline request, and keeps its figures in their ranges. -/
structure Beside (new old : Outlet) : Prop where
  committed : new.committed = old.committed
  strokeSet : new.strokeSet = old.strokeSet
  deadline : ∀ ms late u, new.request = some (.deadline ms late u) ↔ old.request = some (.deadline ms late u)
  fits : old.fits → new.fits
  inRange : old.fits → old.fields.inRange → new.fields.inRange
  missRun : old.missRun ≤ 15 → new.missRun ≤ 15

theorem Beside.refl (x : Outlet) : Beside x x := ⟨rfl, rfl, fun _ _ _ => .rfl, id, fun _ => id, id⟩

/-- The confirm of a held set at its outlet and in the table (R127): its records are DELIVERED and its units move from committed to fill. -/
def State.confirmSet (s : State) (o : OutletNo) (set : StrokeSet) : State :=
  let s := s.retireAll .delivered set.members
  let x := s.outlet o
  let moved := min set.units x.committed
  s.setOutlet o { x with committed := x.committed - moved, fill := x.fill + moved, missRun := 0, strokeSet := none }

/-- The records of a missed set CARRIED (R128). -/
def State.missSet (s : State) (o : OutletNo) (set : StrokeSet) : State :=
  set.members.foldl (fun s t => s.carryRecord .strokeMiss t) (s.modOutlet o Outlet.endSet)

/-- A deed of the Track Controller, the Route Decider or the Air Arbiter: what it is done to is as the deed's own rule has it. -/
inductive Deed (s : State) : State → Prop where
  | ends {t : Tag} : (∃ r ∈ s.membersOf t, r.state = .carried) → Deed s (s.retire .ended t)
  | abandons {t : Tag} : (∃ r ∈ s.membersOf t, r.state = .due) → Deed s (s.abandonLate t)
  | fires {t : Tag} : (∃ r ∈ s.membersOf t, r.state = .routed) → Deed s (s.fireCluster t)
  | decides {t : Tag} : (∃ r ∈ s.membersOf t, r.state = .pending) → Deed s (s.decisionWalk t)
  | reroutes {t : Tag} {o : OutletNo} : (∃ r ∈ s.membersOf t, r.waitsAt o = true) → Deed s (s.reroute t)
  | grants : Deed s s.grantDecision
  | confirms {o : OutletNo} {set : StrokeSet} : (s.outlet o).strokeSet = some set → Deed s (s.confirmSet o set)
  | misses {o : OutletNo} {set : StrokeSet} : (s.outlet o).strokeSet = some set → Deed s (s.missSet o set)
  | losesSet {o : OutletNo} : Deed s (s.loseSet o)
  | amends {r : Record} {a : Amendment} {t : State} : r ∈ s.tc.records → s.amend r a = some t → Deed s t
  | withdraws {r : Record} {t : State} : r ∈ s.tc.records → s.withdraw r = some t → Deed s t

/-- One change of the state under a command. -/
inductive Change (c : Instr) (s : State) : State → Prop where
  | aside {t : State} : Aside t s → Change c s t
  | counts {tau : Tau} : TauGrows tau s.tau → Change c s { s with tau := tau }
  | outlets {v : Vector Outlet 16} : (∀ o, Beside (vget v o) (s.outlet o)) → (∀ o, (vget v o).paddle = .stroke ↔ (s.outlet o).paddle = .stroke) →
      Change c s { s with outlets := v }
  | strokeEnds {o : OutletNo} {x : Outlet} : Beside x (s.outlet o) → (s.outlet o).paddle = .stroke → x.paddle ≠ .stroke →
      Change c s { s.setOutlet o x with aa := { slotsInUse := s.aa.slotsInUse - 1 } }
  | deed {t : State} : Deed s t → Change c s t
  /-- The link takes L to E, or keeps both and does not leave ACTIVE. -/
  | link {i : Ilc} : i.l = i.e ∨ i.l = s.ilc.l ∧ i.e = s.ilc.e ∧ (i.link = .active ∨ s.ilc.link ≠ .active) → Change c s { s with ilc := i }
  | credits {i : Ilc} : s.service = .serving → i.link = .active → (i.l - i.e).toNat ≤ s.freeCount → Change c s { s with ilc := i }
  | numbers {n : Byte} : s.ilc.link = .active → (n - s.ilc.e).toNat < 128 → 1 ≤ (s.ilc.l - n).toNat → (s.ilc.l - n).toNat ≤ 128 →
      Change c s { s with ilc := { s.ilc with e := n + 1 } }
  /-- Parameters and the belt unit's figures, but for what the reverse excess is judged by. -/
  | figures {p : Params} {b : Bpu} : (s.params.inRange → p.inRange) → (s.bpu.v ≤ 65520 → b.v ≤ 65520) → (s.bpu.errorLevel ≤ 31 → b.errorLevel ≤ 31) →
      b.hwm = s.bpu.hwm → (b.reverseExcess = decide (p.reverseAllow < ahead b.hwm b.position)
        ∨ p.reverseAllow = s.params.reverseAllow ∧ b.position = s.bpu.position ∧ b.reverseExcess = s.bpu.reverseExcess) →
      Change c s { s with params := p, bpu := b }
  | moves {b : Bpu} : c.movesBelt = true → b.v = s.bpu.v → b.errorLevel = s.bpu.errorLevel → b.reverseExcess = decide (s.params.reverseAllow < ahead b.hwm b.position) →
      Change c s { s with bpu := b }
  | rebases : s.service = .failsafe → Change c s s.rebase
  | service {x : ServiceState} : x = .serving ∨ x = .draining ∨ x = .standby ∧ s.service = .failsafe → Change c s { s with service := x }
  | drains : Change c s s.drainCheck
  | failsafe : Change c s s.enterFailsafe
  | tracking : Change c s s.trackingReset
  | plan {r : Rd} : c.writesPlan = true → Change c s { s with rd := r }
  | clears {tau : Tau} : c.clearsTallies = true → (s.tau.bounded → tau.bounded) → Change c s { s with tau := tau }
  | powerOn {csLow : Bool} : c = .powerOnReset csLow → Change c s (s.powerOn csLow)

/-- A chain of changes. -/
def Chain (c : Instr) : State → State → Prop := Relation.ReflTransGen (Change c)

theorem Chain.refl {c : Instr} {s : State} : Chain c s s := Relation.ReflTransGen.refl

theorem Chain.single {c : Instr} {s t : State} (h : Change c s t) : Chain c s t := Relation.ReflTransGen.single h

theorem Chain.trans {c : Instr} {s t u : State} (h : Chain c s t) (k : Chain c t u) : Chain c s u := Relation.ReflTransGen.trans h k

/-- What every change keeps, a chain of changes keeps. -/
theorem Chain.keeps {c : Instr} {R : State → State → Prop} (hr : ∀ s, R s s) (ht : ∀ s t u, R s t → R t u → R s u) (hc : ∀ s t, Change c s t → R s t) {s t : State}
    (h : Chain c s t) : R s t := by
  induction h with
  | refl => exact hr s
  | tail _ hstep ih => exact ht _ _ _ ih (hc _ _ hstep)

theorem Chain.foldl {c : Instr} {α : Type} {f : State → α → State} (hf : ∀ s a, Chain c s (f s a)) (l : List α) (s : State) : Chain c s (l.foldl f s) := by
  induction l generalizing s with
  | nil => exact .refl
  | cons a l ih => exact (hf s a).trans (ih (f s a))

/-- The kinds of change as chains. -/
theorem Chain.aside {c : Instr} {s t : State} (h : Aside t s) : Chain c s t := .single (.aside h)

theorem Chain.deed {c : Instr} {s t : State} (h : Deed s t) : Chain c s t := .single (.deed h)

theorem Chain.counts {c : Instr} {s : State} {tau : Tau} (h : TauGrows tau s.tau) : Chain c s { s with tau := tau } := .single (.counts h)

theorem Chain.raise {c : Instr} (s : State) (src : Source) : Chain c s (s.raise src) := .counts (.raise s src)

theorem Chain.raiseIf {c : Instr} (s : State) (b : Bool) (src : Source) : Chain c s (s.raiseIf b src) := by
  cases b
  · exact .refl
  · exact .raise s src

theorem Chain.countKey {c : Instr} (s : State) (k : KeyNo) (n : KeyCount) : Chain c s (s.countKey k n) := .counts (.countKey s k n)

theorem Chain.countOutlet {c : Instr} (s : State) (o : OutletNo) (n : OutletCount) (m : Nat) : Chain c s (s.countOutlet o n m) := .counts (.countOutlet s o n m)

theorem Chain.countDevice {c : Instr} (s : State) (n : DeviceCount) (m : Nat) : Chain c s (s.countDevice n m) := .counts (.countDevice s n m)

theorem Chain.grantDecision {c : Instr} (s : State) : Chain c s s.grantDecision := .deed .grants

/-- One outlet record replaced beside the laws. -/
theorem Chain.setOutlet {c : Instr} {s : State} {o : OutletNo} {x : Outlet} (h : Beside x (s.outlet o)) (hp : x.paddle = .stroke ↔ (s.outlet o).paddle = .stroke) :
    Chain c s (s.setOutlet o x) := by
  refine .single (.outlets (v := vset s.outlets o x) (fun j => ?_) fun j => ?_)
  all_goals
    rw [vget_vset]
    split
    next e => subst e; assumption
    next => exact .refl _

theorem Chain.modOutlet {c : Instr} {s : State} {o : OutletNo} {f : Outlet → Outlet} (h : ∀ x, Beside (f x) x) (hp : ∀ x, (f x).paddle = .stroke ↔ x.paddle = .stroke) :
    Chain c s (s.modOutlet o f) := .setOutlet (h _) (hp _)

end Sys2Proof.Machine
end


section
/-! PROOFS. Every command but an accepted notice is a chain of changes: the belt, the outlets and paddles, the millisecond tick and the intake link. -/

namespace Sys2Proof.Machine

/-! ### The Track Controller and the outlets -/

theorem Chain.reachKind {c : Instr} {s : State} {st : RecordState} {p : Pos} {act : State → Tag → State}
    (h : ∀ s t, (∃ r ∈ s.membersOf t, r.state = st) → Chain c s (act s t)) : Chain c s (s.reachKind st p act) := by
  refine Chain.foldl (fun s t => ?_) _ _
  split
  · next hs =>
    obtain ⟨r, hr, hp⟩ := List.any_eq_true.mp hs
    simp only [Bool.and_eq_true, beq_iff_eq] at hp
    exact h s t ⟨r, hr, hp.1⟩
  · exact .refl

theorem Chain.reachWaypoints {c : Instr} (s : State) : Chain c s s.reachWaypoints := by
  have hend : ∀ u, Chain c u (u.reachKind .carried s.bpu.position (fun s t => s.retire .ended t)) := fun _ => .reachKind fun _ _ h => .deed (.ends h)
  have hlate : ∀ u, Chain c u (u.reachKind .due s.bpu.position State.abandonLate) := fun _ => .reachKind fun _ _ h => .deed (.abandons h)
  have hfire : ∀ u, Chain c u (u.reachKind .routed s.bpu.position State.fireCluster) := fun _ => .reachKind fun _ _ h => .deed (.fires h)
  have hdecide : ∀ u, Chain c u (u.reachKind .pending s.bpu.position State.decisionWalk) := fun _ => .reachKind fun _ _ h => .deed (.decides h)
  exact (hend _).trans ((hlate _).trans ((hfire _).trans ((hdecide _).trans (hlate _))))

theorem Chain.loseAcceptance {c : Instr} (s : State) (o : OutletNo) : Chain c s (s.loseAcceptance o) := by
  refine Chain.foldl (fun s t => ?_) _ _
  split
  · next hs =>
    obtain ⟨r, hr, hp⟩ := List.any_eq_true.mp hs
    exact .deed (.reroutes ⟨r, hr, hp⟩)
  · exact .refl

theorem Chain.judgeFill {c : Instr} (s : State) (o : OutletNo) (old : Nat) : Chain c s (s.judgeFill o old) := by
  unfold State.judgeFill
  dsimp only
  refine Chain.trans ?_ (Chain.raiseIf _ _ _)
  split
  · exact Chain.setOutlet (x := { s.outlet o with rack := .full }) ⟨rfl, rfl, fun _ _ _ => .rfl, id, fun _ => id, id⟩ .rfl
  · exact .refl

theorem Chain.judgeClosing {c : Instr} (s : State) (o : OutletNo) : Chain c s (s.judgeClosing o) := by
  unfold State.judgeClosing
  dsimp only
  split
  · exact (Chain.setOutlet (x := { s.outlet o with rack := .swapReady }) ⟨rfl, rfl, fun _ _ _ => .rfl, id, fun _ => id, id⟩ .rfl).trans (.raise _ _)
  · exact .refl

theorem Chain.takePassage {c : Instr} (s : State) (o : OutletNo) : Chain c s (s.takePassage o) := by
  unfold State.takePassage
  split
  · next set h =>
    have hset : Chain c s (s.confirmSet o set) := .deed (.confirms h)
    exact hset.trans ((Chain.countOutlet _ _ _ _).trans ((Chain.countOutlet _ _ _ _).trans ((Chain.judgeFill _ _ _).trans ((Chain.judgeClosing _ _).trans (.grantDecision _)))))
  · unfold State.stray
    dsimp only
    refine (Chain.countOutlet s o .strays 1).trans ?_
    split
    · next h =>
      have hroom : (s.outlet o).fill + (s.outlet o).committed < (s.outlet o).fields.capacity := h.2
      have hx : ({ s.outlet o with fill := (s.outlet o).fill + 1 } : Outlet).fits := by simp only [Outlet.fits]; omega
      have hfill : Chain c (s.countOutlet o .strays 1) ((s.countOutlet o .strays 1).setOutlet o { s.outlet o with fill := (s.outlet o).fill + 1 }) :=
        .setOutlet ⟨rfl, rfl, fun _ _ _ => .rfl, fun _ => hx, fun _ => id, id⟩ .rfl
      exact hfill.trans (.judgeFill _ _ _)
    · exact .refl

theorem Chain.enterFaulted {c : Instr} (s : State) (o : OutletNo) : Chain c s (s.enterFaulted o) := by
  unfold State.enterFaulted
  dsimp only
  split
  · exact .refl
  · refine Chain.trans ?_ ((Chain.raise _ _).trans (.loseAcceptance _ _))
    split
    · next h =>
      exact Chain.trans (.single (.strokeEnds (x := { s.outlet o with paddle := .faulted }) ⟨rfl, rfl, fun _ _ _ => .rfl, id, fun _ => id, id⟩ h (by simp))) (.grantDecision _)
    · next h =>
      exact Chain.setOutlet (x := { s.outlet o with paddle := .faulted }) ⟨rfl, rfl, fun _ _ _ => .rfl, id, fun _ => id, id⟩ (by simp [h])

theorem Chain.miss {c : Instr} {s : State} {o : OutletNo} {set : StrokeSet} (h : (s.outlet o).strokeSet = some set) : Chain c s (s.miss o set) := by
  have hmiss : Chain c s (s.missSet o set) := .deed (.misses h)
  have hcount : Chain c s (((s.missSet o set).countOutlet o .misses 1).modOutlet o Outlet.raiseMissRun) :=
    (hmiss.trans (.countOutlet _ _ _ _)).trans (.modOutlet (fun x => ⟨rfl, rfl, fun _ _ _ => .rfl, id, fun _ => id, fun _ => Nat.min_le_left _ _⟩) fun _ => .rfl)
  show Chain c s (if _ then _ else _)
  split
  · exact hcount.trans (.enterFaulted _ _)
  · exact hcount.trans (.grantDecision _)

theorem Chain.rackRemoved {c : Instr} (s : State) (o : OutletNo) : Chain c s (s.rackRemoved o) := by
  have hrack : Chain c s (((s.modOutlet o (fun x => { x with rackFilter := x.rackFilter.accept false, rack := .absent, rackKey := none })).loseAcceptance o).loseSet o) :=
    ((Chain.modOutlet (f := fun x => { x with rackFilter := x.rackFilter.accept false, rack := .absent, rackKey := none })
      (fun x => ⟨rfl, rfl, fun _ _ _ => .rfl, id, fun _ => id, id⟩) fun _ => .rfl).trans (.loseAcceptance _ _)).trans (.deed .losesSet)
  have hfill : ∀ u : State, Chain c u (u.modOutlet o (fun x => { x with fill := 0 })) := fun u =>
    .modOutlet (fun x => ⟨rfl, rfl, fun _ _ _ => .rfl, fun h => by simp only [Outlet.fits] at *; omega, fun _ => id, id⟩) fun _ => .rfl
  have hcount : ∀ u : State, Chain c u (if 0 < (u.outlet o).fill then
      (match (s.outlet o).rackKey with | some k => u.countKey k .racks | none => u : State).countOutlet o .racks 1 else u) := fun u => by
    split
    · refine Chain.trans ?_ (.countOutlet _ _ _ _)
      split
      · exact .countKey _ _ _
      · exact .refl
    · exact .refl
  have hgrant : ∀ (b : Bool) (u : State), Chain c u (if b = true then u.grantDecision else u) := fun b u => by
    split
    · exact .grantDecision _
    · exact .refl
  exact hrack.trans ((hcount _).trans ((hfill _).trans (hgrant _ _)))

theorem Chain.pressRack {c : Instr} (s : State) (o : OutletNo) : Chain c s (s.pressRack o) := by
  have hrack : ∀ k : RackState, Chain c s (s.setOutlet o { s.outlet o with rack := k }) := fun k => .setOutlet ⟨rfl, rfl, fun _ _ _ => .rfl, id, fun _ => id, id⟩ .rfl
  unfold State.pressRack
  dsimp only
  split
  · split
    · exact hrack _
    · exact (hrack _).trans (.raise _ _)
  · exact (hrack _).trans (.raise _ _)
  · exact .refl

/-! ### The intake link -/

theorem Chain.goOffline {c : Instr} (s : State) : Chain c s s.goOffline := .single (.link (.inl rfl))

theorem Chain.loseLink {c : Instr} (s : State) : Chain c s s.loseLink := (Chain.goOffline s).trans (.raise _ _)

/-- The credit that a beacon grants is the allowance, which FREE slots cover (R148). -/
theorem State.allowance_covered (s : State) (e : Byte) : (e + BitVec.ofNat 8 s.allowance - e).toNat ≤ s.freeCount := by
  have hle : s.allowance ≤ 127 ∧ s.allowance ≤ s.freeCount := by unfold State.allowance; omega
  have he : e + BitVec.ofNat 8 s.allowance - e = BitVec.ofNat 8 s.allowance := by bv_omega
  rw [he, BitVec.toNat_ofNat]
  omega

theorem Chain.composeBeacon {c : Instr} (s : State) : Chain c s s.composeBeacon := by
  unfold State.composeBeacon
  dsimp only
  refine (Chain.raiseIf s (decide ((s.service = .serving ∧ s.ilc.link = .active) ∧ s.allowance = 0)) .pressure).trans ?_
  by_cases hg : s.service = .serving ∧ s.ilc.link = .active
  · refine .single (.credits (by simpa using hg.1) (by simpa using hg.2) ?_)
    rw [if_pos hg]
    have h := s.allowance_covered s.ilc.e
    simpa [State.freeCount] using h
  · exact .single (.link (.inl (by simp [if_neg hg])))

theorem Chain.enterSyncing {c : Instr} (s : State) : Chain c s s.enterSyncing :=
  Chain.trans (.single (.link (.inl rfl))) (.composeBeacon _)

theorem Chain.validFrame {c : Instr} (s : State) : Chain c s s.validFrame := .aside (by constructor <;> rfl)

theorem Chain.setRx {c : Instr} (s : State) (rx : RxLine) : Chain c s (s.setRx rx) := .aside (by constructor <;> rfl)

theorem Chain.badFrame {c : Instr} (s : State) : Chain c s s.badFrame := by
  have h : Chain c s { s.countDevice .badFrames 1 with ilc := { s.ilc with assembler := .hunt, badRun := min 4 (s.ilc.badRun + 1) } } :=
    (Chain.countDevice s .badFrames 1).trans (.aside (by constructor <;> rfl))
  unfold State.badFrame
  dsimp only
  split
  · exact h.trans (.loseLink _)
  · exact h

theorem Chain.byteError {c : Instr} (s : State) : Chain c s s.byteError := by
  unfold State.byteError
  split
  · exact .refl
  · exact .badFrame s

theorem Chain.syncFrame {c : Instr} {s : State} (h : s.ilc.link = .syncing) : Chain c s s.syncFrame := .single (.link (.inr ⟨rfl, rfl, .inr (by simp [h])⟩))

theorem Chain.takeJoin {c : Instr} (s : State) (level : Byte) : Chain c s (s.takeJoin level) := by
  unfold State.takeJoin
  split
  · exact (Chain.validFrame s).trans (.enterSyncing _)
  · exact .badFrame s

theorem Chain.takeKeepalive {c : Instr} (s : State) : Chain c s s.takeKeepalive := by
  unfold State.takeKeepalive
  dsimp only
  split
  · next h => exact (Chain.validFrame s).trans (.syncFrame h)
  · exact .validFrame s

theorem Chain.judgeRevise {c : Instr} (s : State) (n : Byte) (sc sk : Bool) (cls : ClassNo) (key : KeyNo) : Chain c s (s.judgeRevise n sc sk cls key) := by
  unfold State.judgeRevise
  split
  · exact .countDevice _ _ _
  · split
    · exact .countDevice _ _ _
    · next r hr =>
      have hmem : r ∈ s.tc.records := List.mem_reverse.mp (List.mem_of_find?_eq_some hr)
      cases ha : s.amend r { cls := if sc then some cls else none, key := if sk then some key else none } with
      | none => exact .refl
      | some t => exact .deed (.amends hmem ha)

theorem Chain.takeRevise {c : Instr} (s : State) (n : Byte) (sc sk : Bool) (cls : ClassNo) (key : KeyNo) : Chain c s (s.takeRevise n sc sk cls key) := by
  unfold State.takeRevise
  dsimp only
  split
  · exact .validFrame s
  · next h => exact (Chain.validFrame s).trans ((Chain.countDevice _ _ _).trans (.syncFrame h))
  · exact (Chain.validFrame s).trans (.judgeRevise _ _ _ _ _ _)

/-! ### Notices -/

/-- An accepted notice under a command: up to E the command is a chain of changes that leaves the table, the belt and the parameters, and then E is n + 1 and the record
is created (R153 to R156). -/
structure Accepted (c : Instr) (s w : State) (n : Byte) (stamp : Pos) : Prop where
  chain : Chain c s w
  table : w.tc = s.tc
  belt : w.bpu = s.bpu
  params : w.params = s.params
  serving : w.service = .serving
  active : w.ilc.link = .active
  inOrder : (n - w.ilc.e).toNat < 128
  covered : 1 ≤ (w.ilc.l - n).toNat ∧ (w.ilc.l - n).toNat ≤ 128
  fresh : ahead s.bpu.position stamp ≤ s.params.noticeAge

/-- What an outcome of a command is: the end of a chain of changes, or a record's creation after one. -/
def Does (c : Instr) (s : State) (out : Outcome) : Prop :=
  (∃ t, out = .next t ∧ Chain c s t)
    ∨ ∃ w n stamp len cls key clamped, out = ({ w with ilc := { w.ilc with e := n + 1 } } : State).create n stamp len cls key clamped ∧ Accepted c s w n stamp

theorem Does.next {c : Instr} {s t : State} (h : Chain c s t) : Does c s (.next t) := .inl ⟨t, rfl, h⟩

/-- A command that goes on from where a chain, which leaves the table, the belt and the parameters, has led. -/
theorem Does.after {c : Instr} {s u : State} {out : Outcome} (h : Chain c s u) (htc : u.tc = s.tc) (hb : u.bpu = s.bpu) (hp : u.params = s.params)
    (hd : Does c u out) : Does c s out := by
  obtain ⟨t, ho, ht⟩ | ⟨w, n, stamp, len, cls, key, clamped, ho, ha⟩ := hd
  · exact .inl ⟨t, ho, h.trans ht⟩
  · exact .inr ⟨w, n, stamp, len, cls, key, clamped, ho, h.trans ha.chain, ha.table.trans htc, ha.belt.trans hb, ha.params.trans hp, ha.serving, ha.active, ha.inOrder,
      ha.covered, hb ▸ hp ▸ ha.fresh⟩

theorem judgeNotice_does {c : Instr} {s : State} (hl : s.ilc.link = .active) (n : Byte) (stamp : Pos) (len : BitVec 16) (cls : ClassNo) (key : KeyNo) :
    Does c s (s.judgeNotice n stamp len cls key) := by
  unfold State.judgeNotice
  split
  · exact .next (.countDevice _ _ _)
  next h1 =>
  split
  · exact .next ((Chain.countDevice _ _ _).trans (.raise _ _))
  next h2 =>
  dsimp only
  generalize hg : (if (n - s.ilc.e).toNat = 0 then s else (s.countDevice .gapTotal (n - s.ilc.e).toNat).raise .intake) = w
  have hw : Chain c s w ∧ w.tc = s.tc ∧ w.bpu = s.bpu ∧ w.params = s.params ∧ w.ilc = s.ilc := by
    subst hg
    split
    · exact ⟨.refl, rfl, rfl, rfl, rfl⟩
    · exact ⟨(Chain.countDevice _ _ _).trans (.raise _ _), rfl, rfl, rfl, rfl⟩
  obtain ⟨hc, htc, hb, hp, hi⟩ := hw
  have hn : Chain c s { w with ilc := { w.ilc with e := n + 1 } } :=
    hc.trans (.single (.numbers (by rw [hi, hl]) (by rw [hi]; omega) (by rw [hi]; omega) (by rw [hi]; omega)))
  split
  · exact .next (hn.trans (.countDevice _ _ _))
  next hs =>
  generalize (if (atOrBeyond stamp w.bpu.position && stamp != w.bpu.position) = true then w.bpu.position else stamp) = st
  split
  · exact .next (hn.trans ((Chain.countDevice _ _ _).trans (.raise _ _)))
  next hage =>
  refine .inr ⟨w, n, st, len, cls, key, _, rfl, hc, htc, hb, hp, by simpa using hs, by rw [hi, hl], by rw [hi]; omega, by rw [hi]; omega, ?_⟩
  simpa [hb, hp] using hage

theorem takeNotice_does {c : Instr} (s : State) (n : Byte) (stamp : Pos) (len : BitVec 16) (cls : ClassNo) (key : KeyNo) :
    Does c s (s.takeNotice n stamp len cls key) := by
  unfold State.takeNotice
  dsimp only
  split
  · exact .next (.validFrame s)
  · next h => exact .next ((Chain.validFrame s).trans ((Chain.countDevice _ _ _).trans (.syncFrame h)))
  · next h => exact .after (Chain.validFrame s) rfl rfl rfl (judgeNotice_does h ..)

theorem takeFrame_does {c : Instr} (s : State) (frame : Instr) : Does c s (s.takeFrame frame) := by
  unfold State.takeFrame
  split
  · exact .next (.takeJoin _ _)
  · exact .next (.takeKeepalive _)
  · exact takeNotice_does ..
  · exact .next (.takeRevise ..)
  · exact .next (.badFrame _)

theorem takeByte_does {c : Instr} (s : State) (b : Byte) : Does c s (s.takeByte b) := by
  have keep : ∀ a : Assembler, Does c s (.next { s with ilc := { s.ilc with assembler := a } }) := fun a => .next (.aside (by constructor <;> rfl))
  unfold State.takeByte
  dsimp only
  split
  · split
    · exact keep _
    · exact .next .refl
  · exact keep _
  · split
    · exact keep _
    · exact .next (.badFrame _)
  · exact keep _
  · split
    · split
      · exact takeFrame_does ..
      · exact .next (.badFrame _)
    · exact .next (.badFrame _)

theorem takeLevels_does {c : Instr} (levels : List Bool) (s : State) : Does c s (s.takeLevels levels) := by
  induction levels generalizing s with
  | nil => exact .next .refl
  | cons level rest ih =>
    unfold State.takeLevels
    split
    · next rx _ => exact .after (Chain.setRx s rx) rfl rfl rfl (ih _)
    · next rx _ _ => exact .after (Chain.setRx s rx) rfl rfl rfl (takeByte_does ..)
    · next rx _ => exact .next ((Chain.setRx s rx).trans (.byteError _))

/-! ### Events and the millisecond tick -/

/-- The smoothed speed stays within its 16 bits: V ≤ 65,520 and M ≤ 4,095 give V − floor(V/8) + 2M ≤ 65,520 (R13). -/
theorem nextV_le {v : Nat} (h : v ≤ 65520) (count : Int) : nextV v (windowM count) ≤ 65520 := by
  unfold nextV windowM
  split <;> omega

theorem Chain.expireWindow {c : Instr} (s : State) : Chain c s s.expireWindow := by
  refine .single (.figures (p := s.params) id (fun hv => nextV_le hv _) (fun he => ?_) rfl (.inr ⟨rfl, rfl, rfl⟩))
  dsimp only
  split <;> omega

theorem Chain.raiseStall {c : Instr} (s : State) : Chain c s s.raiseStall := by
  have h : Chain c s { s with bpu := { s.bpu with stallRaised := true } } := .single (.figures (p := s.params) id id id rfl (.inr ⟨rfl, rfl, rfl⟩))
  exact h.trans (.raise _ _)

theorem Chain.acceptHome {c : Instr} (s : State) (o : OutletNo) (home : Bool) : Chain c s (s.acceptHome o home) := by
  have h : Chain c s (s.modOutlet o (fun x => { x with homeFilter := x.homeFilter.accept home })) :=
    .modOutlet (fun _ => ⟨rfl, rfl, fun _ _ _ => .rfl, id, fun _ => id, id⟩) fun _ => .rfl
  exact h.trans (.aside (by constructor <;> rfl))

theorem Chain.rackArrives {c : Instr} (s : State) (o : OutletNo) (key : KeyNo) : Chain c s (s.rackArrives o key) := by
  refine .modOutlet (fun x => ⟨rfl, rfl, fun _ _ _ => .rfl, fun h => ?_, fun _ => id, id⟩) fun _ => .rfl
  simp only [Outlet.fits] at *
  omega

theorem Chain.buttonPresses {c : Instr} (s : State) (o : OutletNo) : Chain c s (s.buttonPresses o) := by
  have h : Chain c s (s.modOutlet o (fun x => { x with buttonFilter := x.buttonFilter.accept true })) :=
    .modOutlet (fun _ => ⟨rfl, rfl, fun _ _ _ => .rfl, id, fun _ => id, id⟩) fun _ => .rfl
  unfold State.buttonPresses
  dsimp only
  split
  · exact h.trans (.pressRack _ _)
  · exact h

theorem Chain.eyeBlocks {c : Instr} (s : State) (o : OutletNo) : Chain c s (s.eyeBlocks o) := by
  have h : Chain c s (s.modOutlet o (fun x => { x with eyeFilter := x.eyeFilter.accept true })) :=
    .modOutlet (fun _ => ⟨rfl, rfl, fun _ _ _ => .rfl, id, fun _ => id, id⟩) fun _ => .rfl
  unfold State.eyeBlocks
  dsimp only
  split
  · exact h.trans (.takePassage _ _)
  · exact h

theorem Chain.endStroke {c : Instr} {s : State} {o : OutletNo} (h : (s.outlet o).paddle = .stroke) : Chain c s (s.endStroke o) := by
  let x : Outlet := { s.outlet o with
    paddle := .recover, recoverTimer := 0, recoverFigure := (s.outlet o).fields.recoverTime, homeFigure := (s.outlet o).fields.homeTimeout }
  have hx : Beside x (s.outlet o) := ⟨rfl, rfl, fun _ _ _ => .rfl, id, fun _ => id, id⟩
  exact Chain.trans (.single (.strokeEnds hx h (by simp [x]))) (.grantDecision _)

theorem Chain.endRecovery {c : Instr} {s : State} {o : OutletNo} (h : (s.outlet o).paddle = .recover) : Chain c s (s.endRecovery o) := by
  have hidle : Chain c s (s.setOutlet o { s.outlet o with paddle := .idle }) := .setOutlet ⟨rfl, rfl, fun _ _ _ => .rfl, id, fun _ => id, id⟩ (by simp [h])
  exact hidle.trans (.grantDecision _)

theorem Chain.blockChute {c : Instr} (s : State) (o : OutletNo) : Chain c s (s.blockChute o) := by
  have h : Chain c s (s.modOutlet o (fun x => { x with blocked := true })) := .modOutlet (fun _ => ⟨rfl, rfl, fun _ _ _ => .rfl, id, fun _ => id, id⟩) fun _ => .rfl
  exact h.trans ((Chain.raise _ _).trans (.loseAcceptance _ _))

theorem Chain.perform {c : Instr} {s : State} {e : Event} (h : s.stands e = true) : Chain c s (s.perform e) := by
  cases e with
  | windowExpiry => exact .expireWindow s
  | stall => exact .raiseStall s
  | homeLevel o => exact .acceptHome s o _
  | rackArrival o => exact .rackArrives s o _
  | rackRemoval o => exact .rackRemoved s o
  | swapPress o => exact .buttonPresses s o
  | passage o => exact .eyeBlocks s o
  | strokeEnd o =>
    simp only [State.stands, Bool.and_eq_true, beq_iff_eq] at h
    exact .endStroke h.1
  | recoveryEnd o =>
    simp only [State.stands, Outlet.recovered, Bool.and_eq_true, beq_iff_eq] at h
    exact .endRecovery h.1.1.1
  | homeTimeout o => exact .enterFaulted s o
  | confirmExpiry o =>
    show Chain c s (match (s.outlet o).strokeSet with | some set => s.miss o set | none => s)
    split
    · next set hset => exact .miss hset
    · exact .refl
  | chuteBlocked o => exact .blockChute s o
  | chuteClear o => exact .modOutlet (f := fun x => { x with blocked := false }) (fun _ => ⟨rfl, rfl, fun _ _ _ => .rfl, id, fun _ => id, id⟩) fun _ => .rfl
  | syncTimeout => exact .goOffline s
  | linkSilence => exact .loseLink s
  | beacon => exact .composeBeacon s

theorem Chain.dropDue {c : Instr} (s : State) (e : Event) : Chain c s (s.dropDue e) := .aside (by constructor <;> rfl)

/-- What stands does so whatever waits to be taken. -/
theorem State.stands_dropDue (s : State) (e e' : Event) : (s.dropDue e').stands e = s.stands e := by cases e <;> rfl

theorem Chain.takeDue {c : Instr} (s : State) (e : Event) : Chain c s (s.takeDue e) := by
  unfold State.takeDue
  split
  · next h => exact (Chain.dropDue s e).trans (.perform (by rw [State.stands_dropDue]; exact h.2))
  · exact .refl

theorem Chain.settleUpTo {c : Instr} (n : Nat) (s : State) : Chain c s (s.settleUpTo n) := by
  induction n generalizing s with
  | zero => exact .aside (by constructor <;> rfl)
  | succ n ih =>
    unfold State.settleUpTo
    split
    · exact .refl
    · refine Chain.trans ?_ (ih _)
      split
      · exact .takeDue _ _
      · exact .dropDue _ _

theorem Beside.tick (p : Params) (home eye rack swap : Bool) (x : Outlet) : Beside (x.tick p home eye rack swap) x := ⟨rfl, rfl, fun _ _ _ => .rfl, id, fun _ => id, id⟩

theorem Ilc.tick_link (i : Ilc) : i.tick.link = i.link ∧ i.tick.e = i.e ∧ i.tick.l = i.l := by
  unfold Ilc.tick
  split <;> exact ⟨rfl, rfl, rfl⟩

/-- Every outlet record changed beside the laws. -/
theorem Chain.mapOutlets {c : Instr} {s : State} {f : OutletNo → Outlet → Outlet} (h : ∀ o x, Beside (f o x) x) (hp : ∀ o x, (f o x).paddle = .stroke ↔ x.paddle = .stroke) :
    Chain c s (s.mapOutlets f) := by
  have ho : ∀ o, vget (s.mapOutlets f).outlets o = f o (s.outlet o) := State.outlet_mapOutlets s f
  have hs : s.mapOutlets f = { s with outlets := (s.mapOutlets f).outlets } := by simp only [State.mapOutlets]
  rw [hs]
  exact .single (.outlets (fun o => by rw [ho]; exact h o _) fun o => by rw [ho]; exact hp o _)

theorem Chain.tickMs {c : Instr} (s : State) (lines : LineSample) : Chain c s (s.tickMs lines) := by
  have hbelt : ∀ u : State, Chain c u { u with bpu := u.bpu.tick lines.driveOn } := fun u =>
    .single (.figures (p := u.params) id id id rfl (.inr ⟨rfl, rfl, rfl⟩))
  have haside : ∀ u : State, Chain c u { u with time := { divider := 0 }, pins := { u.pins with lines := lines }, oc := { lampCycle := (u.oc.lampCycle + 1) % 1000 }, ilc := u.ilc.tick } :=
    fun u => by
      obtain ⟨hlink, he, hl⟩ := Ilc.tick_link u.ilc
      exact .aside ⟨rfl, rfl, rfl, rfl, rfl, rfl, hlink, he, hl, rfl, rfl, rfl, rfl, rfl, rfl, rfl⟩
  have hcount : ∀ u : State, Chain c u (u.count lines) := fun u => by
    unfold State.count
    refine ((hbelt u).trans (haside _)).trans (.mapOutlets (fun o x => ?_) fun o x => ?_)
    · exact .tick _ _ _ _ _ x
    · exact .rfl
  have hdue : ∀ (u : State) (d : List Event), Chain c u { u with due := d } := fun _ _ => .aside (by constructor <;> rfl)
  have hsettle : Chain c s s.settle := .settleUpTo _ s
  unfold State.tickMs
  exact hsettle.trans ((hcount _).trans (hdue _ _))

/-! ### The belt -/

theorem Chain.trackLoss {c : Instr} (s : State) : Chain c s s.trackLoss := (Chain.countDevice s _ _).trans (.single .failsafe)

/-- A tick: the belt unit as it is moved, with the reverse excess evaluated, and TRACK LOSS when that becomes true (R8). -/
theorem Chain.judgeExcess {c : Instr} {s : State} {b : Bpu} (hc : c.movesBelt = true) (hv : b.v = s.bpu.v) (he : b.errorLevel = s.bpu.errorLevel) :
    Chain c s ({ s with bpu := b } : State).judgeExcess := by
  have h : Chain c s { s with bpu := { b with reverseExcess := decide (s.params.reverseAllow < ahead b.hwm b.position) } } := .single (.moves hc hv he rfl)
  unfold State.judgeExcess
  dsimp only
  split
  · exact h.trans (.trackLoss _)
  · exact h

theorem Chain.encoderStep {c : Instr} (hc : c.movesBelt = true) (s : State) (e : EncoderStep) : Chain c s (s.encoderStep e) := by
  cases e with
  | still => exact .refl
  | forward =>
    have hmove : ∀ p h n, Chain c s ({ s with bpu := { s.bpu with position := p, hwm := h, windowCount := n } } : State).judgeExcess := fun _ _ _ => .judgeExcess hc rfl rfl
    simp only [State.encoderStep, State.tickForward]
    exact (hmove _ _ _).trans (.reachWaypoints _)
  | reverse =>
    have hmove : ∀ p n, Chain c s ({ s with bpu := { s.bpu with position := p, windowCount := n } } : State).judgeExcess := fun _ _ => .judgeExcess hc rfl rfl
    exact hmove _ _
  | illegal =>
    have h : Chain c s { s with bpu := { s.bpu with errorLevel := min 31 (s.bpu.errorLevel + 1), windowIllegal := true } } := by
      refine .single (.figures (p := s.params) id id (fun _ => ?_) rfl (.inr ⟨rfl, rfl, rfl⟩))
      exact Nat.min_le_left _ _
    unfold State.encoderStep State.illegalStep
    dsimp only
    split
    · exact h.trans ((Chain.countDevice _ _ _).trans (.single .failsafe))
    · exact h

theorem Chain.encoderLevels {c : Instr} (hc : c.movesBelt = true) (s : State) (fa fb : Filter) : Chain c s (s.encoderLevels fa fb) := by
  have h : Chain c s { s with bpu := { s.bpu with encA := fa, encB := fb } } := .single (.figures (p := s.params) id id id rfl (.inr ⟨rfl, rfl, rfl⟩))
  unfold State.encoderLevels
  dsimp only
  split
  · exact h.trans (.encoderStep hc _ _)
  · exact h

end Sys2Proof.Machine
end


section
/-! PROOFS. Every command but an accepted notice is a chain of changes: the supervisor port, and all commands together. -/

namespace Sys2Proof.Machine

/-! ### Parameters and outlet fields -/

/-- A value brought into a range lies in it. -/
theorem clamp_mem {lo hi : Nat} (h : lo ≤ hi) (x : Nat) : lo ≤ clamp lo hi x ∧ clamp lo hi x ≤ hi := by
  unfold clamp
  omega

/-- The limits of a parameter's range are in order. -/
theorem paramRange_le {n lo hi : Nat} (h : paramRange n = some (lo, hi)) : lo ≤ hi := by
  unfold paramRange at h
  split at h
  all_goals
    simp only [Option.some.injEq, Prod.mk.injEq, reduceCtorEq] at h
  all_goals
    obtain ⟨rfl, rfl⟩ := h
    decide

theorem Chain.storeParam {c : Instr} {s : State} {n v lo hi : Nat} (hr : paramRange n = some (lo, hi)) (h1 : lo ≤ v) (h2 : v ≤ hi) : Chain c s (s.storeParam n v) := by
  have hp : ∀ p : Params, (s.params.inRange → p.inRange) → p.reverseAllow = s.params.reverseAllow → Chain c s { s with params := p } := fun p hp ha =>
    .single (.figures (b := s.bpu) hp id id rfl (.inr ⟨ha, rfl, rfl⟩))
  unfold paramRange at hr
  split at hr
  all_goals
    simp only [Option.some.injEq, Prod.mk.injEq, reduceCtorEq] at hr
  all_goals
    obtain ⟨rfl, rfl⟩ := hr
    simp only [State.storeParam]
  case h_1 => exact (hp { s.params with msDiv := v } (fun h => by simp only [Params.inRange] at *; omega) rfl).trans (.aside (by constructor <;> rfl))
  case h_2 =>
    exact .single (.figures (p := { s.params with encFilter := v }) (b := s.bpu.clearFilterCounts) (fun h => by simp only [Params.inRange] at *; omega) id id rfl (.inr ⟨rfl, rfl, rfl⟩))
  case h_4 =>
    exact .single (.figures (p := { s.params with window := v }) (b := s.bpu.restartWindow) (fun h => by simp only [Params.inRange] at *; omega) (fun _ => Nat.zero_le _) id rfl
      (.inr ⟨rfl, rfl, rfl⟩))
  case h_5 =>
    have hallow : Chain c s { s with params := { s.params with reverseAllow := v }, bpu := { s.bpu with reverseExcess := decide (v < ahead s.bpu.hwm s.bpu.position) } } :=
      .single (.figures (fun h => by simp only [Params.inRange] at *; omega) id id rfl (.inl rfl))
    unfold State.judgeExcess
    dsimp only
    split
    · exact hallow.trans (.trackLoss _)
    · exact hallow
  case h_12 => exact .aside (by constructor <;> rfl)
  case h_17 => exact (hp { s.params with airBudget := v } (fun h => by simp only [Params.inRange] at *; omega) rfl).trans (.grantDecision _)
  all_goals
    refine hp _ (fun h => ?_) rfl
    simp only [Params.inRange] at *
    omega

theorem Chain.setParam {c : Instr} (s : State) (n : Byte) (v : BitVec 24) : Chain c s (s.setParam n v).1 := by
  unfold State.setParam
  split
  · exact .refl
  · next lo hi hr =>
    split
    · exact .refl
    · obtain ⟨h1, h2⟩ := clamp_mem (paramRange_le hr) v.toNat
      exact .storeParam hr h1 h2

theorem clampTrim_mem (t : Int) : -128 ≤ clampTrim t ∧ clampTrim t ≤ 127 := by
  unfold clampTrim
  omega

theorem fieldRange_le (field : Nat) : (fieldRange field).1 ≤ (fieldRange field).2 := by
  unfold fieldRange
  split <;> decide

/-- A field written as R86 and R88 have it keeps the outlet record within its ranges and its capacity. -/
theorem Beside.writeField (x : Outlet) {field : Nat} (hf : field ≤ 13) (hm : field ≠ maskField) (value : BitVec 24) :
    Beside { x with fields := if field = 2 then { x.fields with trim := clampTrim value.toInt } else x.fields.store field (x.fieldValue field value) } x := by
  have htrim := clampTrim_mem value.toInt
  have hmem := clamp_mem (lo := (fieldRange field).1) (hi := (fieldRange field).2) (fieldRange_le field) value.toNat
  generalize hv : clamp (fieldRange field).1 (fieldRange field).2 value.toNat = v at hmem
  refine ⟨rfl, rfl, fun _ _ _ => .rfl, fun hfit => ?_, fun hfit hr => ?_, id⟩
  · by_cases h9 : field = 9
    · subst h9
      simp only [Outlet.fits, OutletFields.store, Outlet.fieldValue, Nat.reduceEqDiff, if_true, if_false]
      omega
    · have hcap : (if field = 2 then { x.fields with trim := clampTrim value.toInt } else x.fields.store field (x.fieldValue field value)).capacity = x.fields.capacity := by
        split
        · rfl
        · unfold OutletFields.store
          split <;> trivial
      simpa [Outlet.fits, hcap] using hfit
  · simp only [maskField] at hm
    interval_cases field
    all_goals
      simp only [Outlet.fieldValue, fieldRange, OutletFields.store, OutletFields.inRange, Outlet.fits, Nat.reduceEqDiff, if_true, if_false] at *
      omega

theorem Chain.judgeCapacity {c : Instr} (s : State) (o : OutletNo) : Chain c s (s.judgeCapacity o) := by
  have hrack : ∀ k : RackState, Chain c s (s.setOutlet o { s.outlet o with rack := k }) := fun k => .setOutlet ⟨rfl, rfl, fun _ _ _ => .rfl, id, fun _ => id, id⟩ .rfl
  unfold State.judgeCapacity
  dsimp only
  split
  · split
    · exact (hrack _).trans (.raise _ _)
    · exact .refl
  · split
    · exact hrack _
    · exact .refl
  · exact .refl

theorem Chain.setOutletField {c : Instr} (s : State) (outlet field : Byte) (value : FieldArg) : Chain c s (s.setOutletField outlet field value).1 := by
  unfold State.setOutletField
  split
  · exact .refl
  next o _ =>
  split
  · next v =>
    split
    · exact .refl
    next hrange =>
    split
    · exact .refl
    have hwrite : Chain c s (s.modOutlet o (fun x => { x with fields :=
        if field.toNat = 2 then { x.fields with trim := clampTrim v.toInt } else x.fields.store field.toNat ((s.outlet o).fieldValue field.toNat v) })) :=
      .setOutlet (.writeField _ (by omega) (by omega) v) .rfl
    unfold State.writeField
    dsimp only
    split
    · exact hwrite.trans (.judgeCapacity _ _)
    · exact hwrite
  · next m =>
    split
    · exact .refl
    · exact Chain.modOutlet (f := fun x => { x with fields := { x.fields with acceptMask := m } }) (fun x => ⟨rfl, rfl, fun _ _ _ => .rfl, id, fun _ => id, id⟩) fun _ => .rfl

/-! ### Outlet actions -/

theorem Chain.onOutlet {c : Instr} {s : State} {act : OutletNo → State × Response} (h : ∀ o, Chain c s (act o).1) (outlet : Byte) : Chain c s (s.onOutlet outlet act).1 := by
  unfold State.onOutlet
  split
  · exact .refl
  · exact h _

theorem Chain.enableOutlet {c : Instr} (s : State) (o : OutletNo) : Chain c s (s.enableOutlet o).1 := by
  unfold State.enableOutlet
  split
  · exact .refl
  · refine Chain.modOutlet (f := fun x => { x with enabled := true, request := if x.request = some .test then none else x.request })
      (fun x => ⟨rfl, rfl, fun ms late u => ?_, id, fun _ => id, id⟩) fun _ => .rfl
    dsimp only
    split
    · next h => simp [h]
    · rfl

theorem Chain.disableOutlet {c : Instr} (s : State) (o : OutletNo) : Chain c s (s.disableOutlet o).1 := by
  unfold State.disableOutlet
  split
  · have h : Chain c s (s.modOutlet o (fun x => { x with enabled := false })) := .modOutlet (fun x => ⟨rfl, rfl, fun _ _ _ => .rfl, id, fun _ => id, id⟩) fun _ => .rfl
    exact h.trans (.loseAcceptance _ _)
  · exact .refl

theorem Chain.closeOutlet {c : Instr} (s : State) (o : OutletNo) : Chain c s (s.closeOutlet o).1 := by
  unfold State.closeOutlet
  split
  · exact .refl
  · exact .pressRack _ _

theorem Chain.reopenOutlet {c : Instr} (s : State) (o : OutletNo) : Chain c s (s.reopenOutlet o).1 := by
  have hrack : ∀ k : RackState, Chain c s (s.setOutlet o { s.outlet o with rack := k }) := fun k => .setOutlet ⟨rfl, rfl, fun _ _ _ => .rfl, id, fun _ => id, id⟩ .rfl
  have hjudge : Chain c s (if (s.outlet o).fill < (s.outlet o).fields.capacity then (s.setOutlet o { s.outlet o with rack := .opened }, okWith [])
      else ((s.setOutlet o { s.outlet o with rack := .full }).raise .rack, okWith [])).1 := by
    split
    · exact hrack _
    · exact (hrack _).trans (.raise _ _)
  unfold State.reopenOutlet
  dsimp only
  cases (s.outlet o).rack with
  | absent => exact .refl
  | opened => exact .refl
  | full => exact .refl
  | closing => exact hjudge
  | swapReady => exact hjudge

theorem Chain.clearFault {c : Instr} (s : State) (o : OutletNo) : Chain c s (s.clearFault o).1 := by
  unfold State.clearFault
  dsimp only
  split
  · next hp =>
    split
    · have h : Chain c s (s.setOutlet o { s.outlet o with paddle := .idle, missRun := 0 }) :=
        .setOutlet ⟨rfl, rfl, fun _ _ _ => .rfl, id, fun _ => id, fun _ => Nat.zero_le _⟩ (by simp [hp])
      exact h.trans (.grantDecision _)
    · exact .refl
  · exact .refl

theorem Chain.testStroke {c : Instr} (s : State) (o : OutletNo) : Chain c s (s.testStroke o).1 := by
  unfold State.testStroke
  dsimp only
  split
  · exact .refl
  split
  · exact .refl
  · next h =>
    have hnone : (s.outlet o).request = none := by
      by_contra hn
      exact h (.inr (.inl hn))
    have hreq : Chain c s (s.setOutlet o { s.outlet o with request := some .test }) := .setOutlet ⟨rfl, rfl, fun _ _ _ => by simp [hnone], id, fun _ => id, id⟩ .rfl
    exact hreq.trans (.grantDecision _)

/-! ### Plan, tracks, reporting, service -/

theorem Chain.putClass {c : Instr} (hc : c.writesPlan = true) (s : State) (cls weight : Byte) (head : BitVec 16) (audit : Byte) (auditHead : BitVec 16) :
    Chain c s (s.putClass cls weight head audit auditHead).1 := by
  unfold State.putClass
  split
  · exact .single (.plan hc)
  · exact .refl

theorem Chain.putRoute {c : Instr} (hc : c.writesPlan = true) (s : State) (index kind : Byte) (field : BitVec 16) (chain : Byte) :
    Chain c s (s.putRoute index kind field chain).1 := by
  unfold State.putRoute
  split
  · exact .refl
  · exact .single (.plan hc)

theorem State.getPlanEntry_fst (s : State) (bank table index : Byte) : (s.getPlanEntry bank table index).1 = s := by
  unfold State.getPlanEntry
  split
  · rfl
  · dsimp only
    split
    · split <;> rfl
    · rfl

/-- What a request about a tag does, it does to a live record of that tag. -/
theorem Chain.onTag {c : Instr} {s : State} {act : Record → State × Response} (h : ∀ r ∈ s.tc.records, Chain c s (act r).1) (tag : BitVec 16) :
    Chain c s (s.onTag tag act).1 := by
  unfold State.onTag
  split
  · exact .refl
  · split
    · exact .refl
    · next r hr => exact h r (List.mem_of_find?_eq_some hr)

theorem Chain.amendTrack {c : Instr} (s : State) (tag : BitVec 16) (sel cls key : Byte) : Chain c s (s.amendTrack tag sel cls key).1 := by
  unfold State.amendTrack
  split
  · exact .refl
  split
  · exact .refl
  split
  · refine .onTag (fun r hr => ?_) _
    split
    · exact .refl
    · next t ht =>
      split
      · exact .deed (.amends hr ht)
      · exact (Chain.deed (.amends hr ht)).trans (.aside (by constructor <;> rfl))
  · exact .refl

theorem Chain.withdrawTrack {c : Instr} (s : State) (tag : BitVec 16) : Chain c s (s.withdrawTrack tag).1 := by
  refine .onTag (fun r hr => ?_) _
  split
  · exact .refl
  · next t ht => exact .deed (.withdraws hr ht)

theorem KeyTally.zero_bounded : KeyTally.zero.bounded := by decide

theorem OutletTally.zero_bounded : OutletTally.zero.bounded := by decide

theorem DeviceTally.zero_bounded : DeviceTally.zero.bounded := by decide

theorem Chain.readTallies (s : State) (group index clear : Byte) : Chain (.readTallies group index clear) s (s.readTallies group index clear).1 := by
  have hclear : ∀ tau : Tau, (s.tau.bounded → tau.bounded) → Chain (.readTallies group index clear) s (if clear.getLsbD 0 = true then { s with tau := tau } else s) := by
    intro tau h
    split
    · next hc => exact .single (.clears hc h)
    · exact .refl
  unfold State.readTallies
  dsimp only
  split
  · split
    · exact .refl
    · next k _ =>
      refine hclear _ fun ⟨hk, ho, hd⟩ => ⟨fun j => ?_, ho, hd⟩
      rw [vget_vset]
      split
      · exact KeyTally.zero_bounded
      · exact hk j
  · split
    · exact .refl
    · next o _ =>
      refine hclear _ fun ⟨hk, ho, hd⟩ => ⟨hk, fun j => ?_, hd⟩
      rw [vget_vset]
      split
      · exact OutletTally.zero_bounded
      · exact ho j
  · exact hclear _ fun ⟨hk, ho, _⟩ => ⟨hk, ho, DeviceTally.zero_bounded⟩
  · exact .refl

theorem Chain.startService {c : Instr} (s : State) : Chain c s s.startService.1 := by
  have hserving : ∀ u : State, Chain c u { u with service := .serving } := fun _ => .single (.service (.inl rfl))
  unfold State.startService
  cases hs : s.service with
  | serving => exact .refl
  | draining => exact hserving s
  | standby =>
    dsimp only
    split
    · exact .refl
    split
    · exact .refl
    · exact hserving s
  | failsafe =>
    dsimp only
    split
    · exact .refl
    split
    · exact .refl
    · exact Chain.trans (.single (.rebases hs)) (hserving _)

theorem Chain.stopService {c : Instr} (s : State) : Chain c s s.stopService.1 := by
  unfold State.stopService
  cases hs : s.service with
  | serving =>
    have hdraining : Chain c s { s with service := .draining } := .single (.service (.inr (.inl rfl)))
    exact hdraining.trans (.single .drains)
  | draining => exact .refl
  | standby => exact .refl
  | failsafe => exact Chain.trans (.single (.rebases hs)) (.single (.service (.inr (.inr ⟨rfl, hs⟩))))

/-! ### Requests and commands -/

theorem serve_does {c : Instr} {body : State → State × Response} {s : State} (h : Chain c s (body s).1) (r : Instr) : Does c s (serve r body s) := by
  unfold serve
  split
  · exact .next .refl
  · exact .next (h.trans (.aside (by constructor <;> rfl)))

/-- A request that answers from the state and leaves it. -/
theorem query_does {c : Instr} {body : State → State × Response} {s : State} (h : (body s).1 = s) (r : Instr) : Does c s (serve r body s) :=
  serve_does (by rw [h]; exact .refl) r

theorem carryOut_does (c : Instr) (s : State) : Does c s (carryOut c s) := by
  cases c
  case queryStatus =>
    change Does _ s (execQueryStatus s)
    exact query_does rfl _
  case setParam n v =>
    change Does _ s (execSetParam n v s)
    exact serve_does (.setParam ..) _
  case getParam n =>
    change Does _ s (execGetParam n s)
    refine query_does ?_ _
    unfold State.getParam
    split <;> rfl
  case setOutletField o f v =>
    change Does _ s (execSetOutletField o f v s)
    exact serve_does (.setOutletField ..) _
  case getOutlet o =>
    change Does _ s (execGetOutlet o s)
    exact serve_does (.onOutlet (act := fun o => (s, okWith (s.outlet o).block)) (fun _ => .refl) _) _
  case outletEnable o =>
    change Does _ s (execOutletEnable o s)
    exact serve_does (.onOutlet (.enableOutlet s) _) _
  case outletDisable o =>
    change Does _ s (execOutletDisable o s)
    exact serve_does (.onOutlet (.disableOutlet s) _) _
  case outletClose o =>
    change Does _ s (execOutletClose o s)
    exact serve_does (.onOutlet (.closeOutlet s) _) _
  case reopen o =>
    change Does _ s (execReopen o s)
    exact serve_does (.onOutlet (.reopenOutlet s) _) _
  case clearFault o =>
    change Does _ s (execClearFault o s)
    exact serve_does (.onOutlet (.clearFault s) _) _
  case testStroke o =>
    change Does _ s (execTestStroke o s)
    exact serve_does (.onOutlet (.testStroke s) _) _
  case putClass k w h a ah =>
    change Does _ s (execPutClass k w h a ah s)
    exact serve_does (.putClass rfl ..) _
  case putRoute i k f ch =>
    change Does _ s (execPutRoute i k f ch s)
    exact serve_does (.putRoute rfl ..) _
  case getPlanEntry b t i =>
    change Does _ s (execGetPlanEntry b t i s)
    exact query_does (State.getPlanEntry_fst ..) _
  case commitPlan =>
    change Does _ s (execCommitPlan s)
    exact serve_does (.single (.plan rfl)) _
  case readPlanStatus =>
    change Does _ s (execReadPlanStatus s)
    exact query_does rfl _
  case clearPlanStatus =>
    change Does _ s (execClearPlanStatus s)
    exact serve_does (.aside (by constructor <;> rfl)) _
  case startService =>
    change Does _ s (execStartService s)
    exact serve_does (.startService _) _
  case stopService =>
    change Does _ s (execStopService s)
    exact serve_does (.stopService _) _
  case resetTracking =>
    change Does _ s (execResetTracking s)
    exact serve_does (.single .tracking) _
  case findTrack t =>
    change Does _ s (execFindTrack t s)
    exact serve_does (.onTag (act := fun r => (s, okWith (s.snapshot r))) (fun _ _ => .refl) _) _
  case nextTrack t =>
    change Does _ s (execNextTrack t s)
    refine serve_does ?_ _
    cases t with
    | none => exact .refl
    | some t => exact .onTag (act := fun r => (s, s.snapshotAnswer (recordAfter r.tag s.tc.records))) (fun _ _ => .refl) _
  case findAt d =>
    change Does _ s (execFindAt d s)
    refine query_does ?_ _
    unfold State.findAt
    split <;> rfl
  case amendTrack t x k l =>
    change Does _ s (execAmendTrack t x k l s)
    exact serve_does (.amendTrack ..) _
  case withdrawTrack t =>
    change Does _ s (execWithdrawTrack t s)
    exact serve_does (.withdrawTrack ..) _
  case readTallies g i k =>
    change Does _ s (execReadTallies g i k s)
    exact serve_does (.readTallies ..) _
  case setAttention e m =>
    change Does _ s (execSetAttention e m s)
    exact serve_does (.aside (by constructor <;> rfl)) _
  case ackAttention x =>
    change Does _ s (execAckAttention x s)
    exact serve_does (.aside (by constructor <;> rfl)) _
  all_goals exact .next .refl

theorem Chain.readTransaction {c : Instr} (s : State) (n : Nat) : Chain c s (s.readTransaction n) := by
  unfold State.readTransaction
  split
  · exact .refl
  · exact .aside (by constructor <;> rfl)

theorem transaction_does (bytes : List Byte) (extra : Nat) (s : State) : Does (Instr.badPortFrame bytes extra).meant s (s.transaction bytes extra) := by
  unfold State.transaction
  split
  · exact .next .refl
  next code rest =>
  split
  · exact .next (.readTransaction _ _)
  split
  · exact .next .refl
  simp only [Instr.meant]
  have hanswer : ∀ (c : Instr) (frame : List Byte) (a : Response), Does c s (.next (s.respond frame a)) := fun _ _ _ => .next (.aside (by constructor <;> rfl))
  cases judgePortFrame (code :: rest) extra with
  | bad => exact hanswer _ _ _
  | unknown => exact hanswer _ _ _
  | request r => exact carryOut_does r s

/-- What every command does (spec/00, How behaviour is stated). -/
theorem exec_does (c : Instr) (s : State) : Does c.meant s (exec c s) := by
  cases c
  case powerOnReset csLow => exact .next (.single (.powerOn rfl))
  case millisecondTick lines => exact .next (.tickMs s lines)
  case encoderStep a b => exact .next (Chain.trans (.aside (by constructor <;> rfl)) (.encoderLevels rfl _ _ _))
  case encoderSample a b => exact .next (Chain.trans (.aside (by constructor <;> rfl)) (.encoderLevels rfl _ _ _))
  case speedWindowExpiry => exact .next (.takeDue s _)
  case stall => exact .next (.takeDue s _)
  case strokeEnd o => exact .next (.takeDue s _)
  case recoveryEnd o => exact .next (.takeDue s _)
  case homeTimeout o => exact .next (.takeDue s _)
  case confirmWindowExpiry o => exact .next (.takeDue s _)
  case chuteBlocked o => exact .next (.takeDue s _)
  case chuteClear o => exact .next (.takeDue s _)
  case syncTimeout => exact .next (.takeDue s _)
  case linkSilenceTimeout => exact .next (.takeDue s _)
  case beacon => exact .next (.takeDue s _)
  case homeLevelAccepted o home =>
    change Does _ s (if _ then _ else _)
    split
    · exact .next .refl
    · exact .next ((Chain.dropDue s _).trans (.acceptHome _ _ _))
  case rackArrival o key =>
    have hpins : ∀ (u : State) (p : Pins), Chain (Instr.rackArrival o key) u { u with pins := p } := fun _ _ => .aside (by constructor <;> rfl)
    change Does _ s (if _ then _ else _)
    split
    · exact .next .refl
    · exact .next ((Chain.dropDue s _).trans ((hpins _ _).trans (.rackArrives _ _ _)))
  case rackRemoval o =>
    change Does _ s (if _ then _ else _)
    split
    · exact .next ((Chain.dropDue s _).trans (.rackRemoved _ _))
    · exact .next .refl
  case swapPress o =>
    change Does _ s (if _ then _ else _)
    split
    · exact .next .refl
    · exact .next ((Chain.dropDue s _).trans (.buttonPresses _ _))
  case passage o =>
    change Does _ s (if _ then _ else _)
    split
    · exact .next .refl
    · exact .next ((Chain.dropDue s _).trans (.eyeBlocks _ _))
  case badFrame cause =>
    cases cause with
    | atLength => exact .next ((Chain.setRx s _).trans (.badFrame _))
    | atCrc => exact .next ((Chain.setRx s _).trans (.badFrame _))
    | byteError => exact .next ((Chain.setRx s _).trans (.byteError _))
  case join level => exact .next ((Chain.setRx s _).trans (.takeJoin _ _))
  case keepalive => exact .next ((Chain.setRx s _).trans (.takeKeepalive _))
  case notice n stamp len cls key => exact .after (Chain.setRx s .idle) rfl rfl rfl (takeNotice_does ..)
  case revise n sc sk cls key => exact .next ((Chain.setRx s _).trans (.takeRevise ..))
  case receivedByte levels => exact takeLevels_does levels s
  case beaconTransmitDone =>
    change Does _ s (execBeaconTransmitDone s)
    unfold execBeaconTransmitDone
    split
    · exact .next (.aside (by constructor <;> rfl))
    · exact .next (.aside (by constructor <;> rfl))
    · exact .next .refl
  case readResponse n => exact .next (.readTransaction s n)
  case badPortFrame bytes extra => exact transaction_does bytes extra s
  case resetHoldCleared => exact .next (.aside (by constructor <;> rfl))
  all_goals exact carryOut_does _ s

end Sys2Proof.Machine
end


section
/-! PROOFS. The part emptied of its work (R54, R110, R132), by one equation; and what every change keeps of the outlets, the ranges, the tallies and the plan. -/

namespace Sys2Proof.Machine

/-! ### The part emptied of its work -/

/-- One live record given up LOST (R54). -/
def State.loseOne (s : State) (r : Record) : State :=
  { (s.countKey r.key .lost) with tc := { s.tc with gens := vset s.tc.gens r.slot (vget s.tc.gens r.slot + 1) } }

/-- The slot generations and the key tallies after the live records have been given up. -/
structure LostAll (s : State) (rs : List Record) (gens : Vector (BitVec 4) 256) (keys : Vector KeyTally 16) : Prop where
  freed : ∀ i : Slot, vget gens i = vget s.tc.gens i + BitVec.ofNat 4 (rs.countP (fun r => r.slot == i))
  counted : s.tau.bounded → ∀ k : KeyNo, vget keys k = { vget s.tau.keys k with lost := min 16777215 ((vget s.tau.keys k).lost + rs.countP (fun r => r.key == k)) }
  tallies : TauGrows { s.tau with keys := keys } s.tau

theorem State.foldl_loseOne (rs : List Record) (s : State) :
    ∃ gens keys, rs.foldl State.loseOne s = { s with tc := { s.tc with gens := gens }, tau := { s.tau with keys := keys } } ∧ LostAll s rs gens keys := by
  induction rs generalizing s with
  | nil => exact ⟨s.tc.gens, s.tau.keys, rfl, fun i => by simp, fun hb k => by have := (hb.1 k).2.2.2.1; simp only [List.countP_nil, Nat.add_zero, Nat.min_eq_right this], .refl _⟩
  | cons r rs ih =>
    obtain ⟨gens, keys, he, hl⟩ := ih (s.loseOne r)
    refine ⟨gens, keys, he, fun i => ?_, fun hb k => ?_, ?_⟩
    · rw [hl.freed i]
      simp only [State.loseOne, vget_vset, List.countP_cons]
      by_cases h : r.slot = i
      · subst h
        simp only [if_pos, beq_self_eq_true, BitVec.ofNat_add]
        bv_omega
      · simp [h]
    · have hb' : (s.loseOne r).tau.bounded := (TauGrows.countKey s r.key .lost).bounded hb
      rw [hl.counted hb' k]
      simp only [State.loseOne, State.countKey, vget_vset, List.countP_cons]
      by_cases h : r.key = k
      · subst h
        simp only [if_pos, beq_self_eq_true, KeyTally.add, bump, KeyTally.mk.injEq, true_and, and_true]
        omega
      · simp [h]
    · exact hl.tallies.trans (.countKey s r.key .lost)

/-- The latch that emptying the outlets raises (R110): RACK, where a rack is CLOSING. -/
def State.closingLatch (s : State) : BitVec 8 := if ∃ o : OutletNo, (s.outlet o).rack = .closing then 0x01 else 0

theorem State.closing_iff (s : State) : outletNos.any (fun o => (s.outlet o).rack == .closing) = true ↔ ∃ o : OutletNo, (s.outlet o).rack = .closing := by
  simp [List.any_eq_true]

/-- The part emptied of its work (R54, R110, R132). -/
theorem State.loseAll_clearOutlets (s : State) :
    ∃ gens keys, s.loseAll.clearOutlets = { s with
        tc := { records := [], gens := gens }
        outlets := (s.mapOutlets fun _ => Outlet.clearWork).outlets
        tau := { s.tau with keys := keys, latches := s.tau.latches ||| s.closingLatch } }
      ∧ LostAll s s.tc.records gens keys := by
  obtain ⟨gens, keys, he, hl⟩ := State.foldl_loseOne s.tc.records s
  refine ⟨gens, keys, ?_, hl⟩
  have hlose : s.loseAll = { s with tc := { records := [], gens := gens }, tau := { s.tau with keys := keys } } := by
    show (s.tc.records.foldl State.loseOne s).setRecords [] = _
    rw [he]
    rfl
  have hany : outletNos.any (fun o => (s.loseAll.outlet o).rack == .closing) = decide (∃ o : OutletNo, (s.outlet o).rack = .closing) := by
    rw [hlose, Bool.eq_iff_iff, decide_eq_true_iff]
    exact s.closing_iff
  unfold State.clearOutlets
  dsimp only
  rw [hany, hlose]
  by_cases hc : ∃ o : OutletNo, (s.outlet o).rack = .closing
  · simp only [hc, decide_true, State.raiseIf, if_true, State.raise, Source.bit, State.closingLatch, State.mapOutlets]
  · have hzero : s.tau.latches ||| 0 = s.tau.latches := BitVec.or_zero
    simp only [hc, decide_false, State.raiseIf, State.closingLatch, State.mapOutlets, if_false, Bool.false_eq_true, hzero]

theorem State.enterFailsafe_eq {s : State} (h : s.service ≠ .failsafe) :
    ∃ gens keys, s.enterFailsafe = { s with
        service := .failsafe
        tc := { records := [], gens := gens }
        outlets := (s.mapOutlets fun _ => Outlet.clearWork).outlets
        ilc := { s.ilc with l := s.ilc.e }
        tau := { s.tau with keys := keys, latches := s.tau.latches ||| s.closingLatch ||| 0x80 } }
      ∧ LostAll s s.tc.records gens keys := by
  obtain ⟨gens, keys, he, hl⟩ := ({ s with service := .failsafe } : State).loseAll_clearOutlets
  refine ⟨gens, keys, ?_, hl.freed, hl.counted, hl.tallies⟩
  unfold State.enterFailsafe
  rw [if_neg h]
  dsimp only
  rw [he]
  rfl

theorem State.enterFailsafe_of_failsafe {s : State} (h : s.service = .failsafe) : s.enterFailsafe = s := by
  unfold State.enterFailsafe
  rw [if_pos h]

theorem State.trackingReset_eq (s : State) :
    ∃ gens keys, s.trackingReset = { s with
        tc := { records := [], gens := gens }
        outlets := (s.mapOutlets fun _ => Outlet.clearWork).outlets
        ilc := s.ilc.trackingReset
        bpu := { s.bpu with hwm := s.bpu.position, reverseExcess := false, errorLevel := 0 }
        service := .standby
        tau := { s.tau with keys := keys, latches := s.tau.latches ||| s.closingLatch } }
      ∧ LostAll s s.tc.records gens keys := by
  obtain ⟨gens, keys, he, hl⟩ := s.loseAll_clearOutlets
  refine ⟨gens, keys, ?_, hl⟩
  unfold State.trackingReset
  dsimp only
  rw [he]
  rfl

/-! ### Deeds as work -/

theorem Work.confirmSet (s : State) (o : OutletNo) (set : StrokeSet) : Work (s.confirmSet o set) s := by
  refine Work.trans (.setOutlet ?_ ?_ ?_) (.retireAll s .delivered set.members)
  · constructor <;> simp
  · simp only [Outlet.fits]
    omega
  · simp

theorem Work.missSet (s : State) (o : OutletNo) (set : StrokeSet) : Work (s.missSet o set) s :=
  (Work.foldl (fun s t => Work.carryRecord s .strokeMiss t) set.members _).trans (.endSet s o)

theorem Work.loseSet (s : State) (o : OutletNo) : Work (s.loseSet o) s := by
  unfold State.loseSet
  split
  · exact .refl s
  · exact (Work.retireAll _ _ _).trans ((Work.release _ _ _).trans (.endSet s o))

theorem Deed.work {s t : State} (h : Deed s t) : Work t s := by
  cases h with
  | ends => exact .retire ..
  | abandons => exact .abandonLate ..
  | fires => exact .fireCluster ..
  | decides => exact .walk ..
  | reroutes => exact .reroute ..
  | grants => exact .grantDecision s
  | confirms => exact .confirmSet ..
  | misses => exact .missSet ..
  | losesSet => exact .loseSet ..
  | amends _ h => exact .amend h
  | withdraws _ h => exact .withdraw h

/-! ### The outlet laws -/

/-- Capacity, stroke slots and ranges kept (O57). -/
structure KeepsOutletLaws (s t : State) : Prop where
  capacity : s.capacityLaw → t.capacityLaw
  slots : s.slotLaw → t.slotLaw
  ranges : s.capacityLaw → s.rangeLaw → t.rangeLaw

theorem KeepsOutletLaws.refl (s : State) : KeepsOutletLaws s s := ⟨id, id, fun _ => id⟩

theorem KeepsOutletLaws.trans {s t u : State} (h : KeepsOutletLaws s t) (k : KeepsOutletLaws t u) : KeepsOutletLaws s u :=
  ⟨k.capacity ∘ h.capacity, k.slots ∘ h.slots, fun hc hr => k.ranges (h.capacity hc) (h.ranges hc hr)⟩

/-- A change that leaves the outlets and the slots in use keeps their laws, and the ranges where it keeps those of the parameters and the belt. -/
theorem KeepsOutletLaws.of_outlets_eq {s t : State} (ho : t.outlets = s.outlets) (ha : t.aa = s.aa) (hp : s.params.inRange → t.params.inRange)
    (hv : s.bpu.v ≤ 65520 → t.bpu.v ≤ 65520) (he : s.bpu.errorLevel ≤ 31 → t.bpu.errorLevel ≤ 31) : KeepsOutletLaws s t where
  capacity := (State.capacityLaw_congr ho).mpr
  slots h := by rw [State.slotLaw, ha, State.strokeCount_congr ho]; exact h
  ranges := fun _ ⟨h1, h2, h3, h4⟩ => ⟨hp h1, fun o => by rw [State.outlet, ho]; exact h2 o, hv h3, he h4⟩

/-- A change of the outlets that keeps each within its ranges. -/
theorem KeepsOutletLaws.of_outlets {s t : State} (hfit : ∀ o, (s.outlet o).fits → (t.outlet o).fits)
    (hrange : ∀ o, (s.outlet o).fits → (s.outlet o).fields.inRange → (t.outlet o).fields.inRange) (hmiss : ∀ o, (s.outlet o).missRun ≤ 15 → (t.outlet o).missRun ≤ 15)
    (hs : s.slotLaw → t.slotLaw) (hp : t.params = s.params) (hv : t.bpu.v = s.bpu.v) (he : s.bpu.errorLevel ≤ 31 → t.bpu.errorLevel ≤ 31) : KeepsOutletLaws s t where
  capacity h o := hfit o (h o)
  slots := hs
  ranges := fun hc ⟨h1, h2, h3, h4⟩ => ⟨hp ▸ h1, fun o => ⟨hrange o (hc o) (h2 o).1, hmiss o (h2 o).2⟩, hv ▸ h3, he h4⟩

theorem Work.keepsOutletLaws {s t : State} (h : Work t s) : KeepsOutletLaws s t where
  capacity := h.capacity
  slots := h.strokes
  ranges := fun _ ⟨h1, h2, h3, h4⟩ => ⟨h.params ▸ h1, fun o => ⟨(h.outlet o).fields ▸ (h2 o).1, (h.outlet o).missRun (h2 o).2⟩, h.bpu ▸ h3, h.bpu ▸ h4⟩

theorem Outlet.clearWork_fits {x : Outlet} (h : x.fits) : x.clearWork.fits := by
  simp only [Outlet.fits, Outlet.clearWork] at *
  omega

/-- Two states whose paddles stroke alike have as many strokes. -/
theorem State.strokeCount_of_paddles {s t : State} (h : ∀ o, (t.outlet o).paddle = .stroke ↔ (s.outlet o).paddle = .stroke) : t.strokeCount = s.strokeCount :=
  List.countP_congr fun o _ => by simp only [beq_iff_eq]; exact h o

theorem KeepsOutletLaws.emptied {s t : State} (ho : t.outlets = (s.mapOutlets fun _ => Outlet.clearWork).outlets) (ha : t.aa = s.aa) (hp : t.params = s.params)
    (hv : t.bpu.v = s.bpu.v) (he : s.bpu.errorLevel ≤ 31 → t.bpu.errorLevel ≤ 31) : KeepsOutletLaws s t := by
  have hout : ∀ o, t.outlet o = (s.outlet o).clearWork := fun o => by rw [State.outlet, ho]; exact State.outlet_mapOutlets s _ o
  refine .of_outlets (fun o h => ?_) (fun o _ h => ?_) (fun o h => ?_) (fun h => ?_) hp hv he
  · rw [hout]; exact Outlet.clearWork_fits h
  · rw [hout]; exact h
  · rw [hout]; exact h
  · rw [State.slotLaw, ha, State.strokeCount_of_paddles (s := s) fun o => by rw [hout]; rfl]
    exact h

theorem State.outlet_powerOn (s : State) (csLow : Bool) (o : OutletNo) : (s.powerOn csLow).outlet o = .reset := vget_replicate _ _

theorem Params.reset_inRange : Params.reset.inRange := by decide

theorem OutletFields.reset_inRange : OutletFields.reset.inRange := by decide

theorem Change.keepsOutletLaws {c : Instr} {s t : State} (h : Change c s t) : KeepsOutletLaws s t := by
  cases h with
  | aside h => exact .of_outlets_eq h.outlets h.aa (by rw [h.params]; exact id) (by rw [h.bpu]; exact id) (by rw [h.bpu]; exact id)
  | counts => exact .of_outlets_eq rfl rfl id id id
  | outlets hb hp =>
    refine .of_outlets (fun o => (hb o).fits) (fun o => (hb o).inRange) (fun o => (hb o).missRun) (fun h => ?_) rfl rfl id
    rw [State.slotLaw, State.strokeCount_of_paddles (s := s) (t := { s with outlets := _ }) hp]
    exact h
  | @strokeEnds o x hb hs hx =>
    have hout : ∀ j, ({ s.setOutlet o x with aa := { slotsInUse := s.aa.slotsInUse - 1 } } : State).outlet j = if o = j then x else s.outlet j := fun j => s.outlet_setOutlet o j x
    refine .of_outlets (fun j h => ?_) (fun j hf h => ?_) (fun j h => ?_) (fun h => ?_) rfl rfl id
    · rw [hout]; split
      · next e => subst e; exact hb.fits h
      · exact h
    · rw [hout]; split
      · next e => subst e; exact hb.inRange hf h
      · exact h
    · rw [hout]; split
      · next e => subst e; exact hb.missRun h
      · exact h
    · have hcount := s.strokeCount_setOutlet o x
      rw [if_pos hs, if_neg hx] at hcount
      have hcongr : ({ s.setOutlet o x with aa := { slotsInUse := s.aa.slotsInUse - 1 } } : State).strokeCount = (s.setOutlet o x).strokeCount := State.strokeCount_congr rfl
      rw [State.slotLaw] at h ⊢
      rw [hcongr]
      dsimp only
      omega
  | deed h => exact h.work.keepsOutletLaws
  | link => exact .of_outlets_eq rfl rfl id id id
  | credits => exact .of_outlets_eq rfl rfl id id id
  | numbers => exact .of_outlets_eq rfl rfl id id id
  | figures hp hv he => exact .of_outlets_eq rfl rfl hp hv he
  | moves _ hv he => exact .of_outlets_eq rfl rfl id (fun h => hv ▸ h) (fun h => he ▸ h)
  | rebases => exact .of_outlets_eq rfl rfl id id id
  | service => exact .of_outlets_eq rfl rfl id id id
  | drains => exact (Work.drainCheck s).keepsOutletLaws
  | failsafe =>
    by_cases hs : s.service = .failsafe
    · rw [State.enterFailsafe_of_failsafe hs]
      exact .refl s
    · obtain ⟨gens, keys, he, -⟩ := State.enterFailsafe_eq hs
      rw [he]
      exact .emptied rfl rfl rfl rfl id
  | tracking =>
    obtain ⟨gens, keys, he, -⟩ := s.trackingReset_eq
    rw [he]
    exact .emptied rfl rfl rfl rfl fun _ => Nat.zero_le _
  | plan => exact .of_outlets_eq rfl rfl id id id
  | clears => exact .of_outlets_eq rfl rfl id id id
  | @powerOn csLow _ =>
    have hout := s.outlet_powerOn csLow
    refine ⟨fun _ o => ?_, fun _ => ?_, fun _ _ => ⟨Params.reset_inRange, fun o => ?_, Nat.zero_le _, Nat.zero_le _⟩⟩
    · rw [hout]; exact Nat.zero_le _
    · show 0 = List.countP _ _
      exact (List.countP_eq_zero.mpr fun o _ => by rw [hout]; decide).symm
    · rw [hout]; exact ⟨OutletFields.reset_inRange, Nat.zero_le _⟩

theorem Chain.keepsOutletLaws {c : Instr} {s t : State} (h : Chain c s t) : KeepsOutletLaws s t :=
  h.keeps .refl (fun _ _ _ => .trans) fun _ _ => Change.keepsOutletLaws

/-! ### Creation as work -/

/-- The new record in its place in the belt-order list, before it is grouped with what it overlaps. -/
def State.inserted (s : State) (r : Record) : State := s.setRecords (insertByStamp r s.tc.records)

theorem Work.enterRecord (s : State) (r : Record) : Work (s.enterRecord r) (s.inserted r) := by
  have hpoint : Work ((s.inserted r).mapRecords (fun x => x.tag == r.tag) (fun x => { x with waypoint := some (s.decisionPoint x) })) (s.inserted r) :=
    .mapRecords fun x _ _ => ⟨rfl, rfl, rfl, rfl, rfl, rfl, id, id, id, .inl ⟨rfl, rfl⟩⟩
  unfold State.enterRecord
  dsimp only
  split
  · exact (Work.decideIfReached _ _).trans hpoint
  split
  · split
    · exact (Work.decideIfReached _ _).trans (.linkCluster _ _)
    · exact .linkCluster _ _
  · exact .carryOverlap _ _ _

/-- What a creation does: its slot was FREE. -/
theorem State.create_next {s t : State} {n : Byte} {stamp : Pos} {len : BitVec 16} {cls : ClassNo} {key : KeyNo} {clamped : Bool}
    (h : s.create n stamp len cls key clamped = .next t) :
    ∃ slot, s.freeSlot = some slot ∧ t = s.enterRecord (newRecord slot (vget s.tc.gens slot) n stamp len cls key clamped) := by
  unfold State.create at h
  split at h
  · cases h
  · next slot hslot =>
    cases h
    exact ⟨slot, hslot, rfl⟩

/-- A command's next state: the end of a chain of changes, or work on a table in which a new record has been put in its place. -/
theorem exec_next {c : Instr} {s t : State} (h : exec c s = .next t) :
    Chain c.meant s t ∨ ∃ w n stamp len cls key clamped slot, Accepted c.meant s w n stamp ∧ ({ w with ilc := { w.ilc with e := n + 1 } } : State).freeSlot = some slot
      ∧ t = ({ w with ilc := { w.ilc with e := n + 1 } } : State).enterRecord (newRecord slot (vget w.tc.gens slot) n stamp len cls key clamped) := by
  obtain ⟨u, hu, hc⟩ | ⟨w, n, stamp, len, cls, key, clamped, hu, ha⟩ := exec_does c s
  · rw [h] at hu
    cases hu
    exact .inl hc
  · rw [h] at hu
    obtain ⟨slot, hslot, ht⟩ := State.create_next hu.symm
    exact .inr ⟨w, n, stamp, len, cls, key, clamped, slot, ha, hslot, ht⟩

theorem Accepted.numbered {c : Instr} {s w : State} {n : Byte} {stamp : Pos} (h : Accepted c s w n stamp) : Chain c s { w with ilc := { w.ilc with e := n + 1 } } :=
  h.chain.trans (.single (.numbers h.active h.inOrder h.covered.1 h.covered.2))

theorem exec_keepsOutletLaws {c : Instr} {s t : State} (h : exec c s = .next t) : KeepsOutletLaws s t := by
  obtain hc | ⟨w, n, stamp, len, cls, key, clamped, slot, ha, -, ht⟩ := exec_next h
  · exact hc.keepsOutletLaws
  · have hins : ∀ (u : State) (r : Record), KeepsOutletLaws u (u.inserted r) := fun _ _ => .of_outlets_eq rfl rfl id id id
    rw [ht]
    exact ha.numbered.keepsOutletLaws.trans ((hins _ _).trans (Work.enterRecord _ _).keepsOutletLaws)

/-- A step is a command on the state with the queue's rest, or idling. -/
theorem step_next {s t : State} (h : step s = .next t) : t = s ∨ ∃ c rest, exec c { s with pending := rest } = .next t := by
  unfold step at h
  split at h
  · cases h
    exact .inl rfl
  · next c rest _ => exact .inr ⟨c, rest, h⟩

/-- Settles O57: every change that a command is made of keeps the outlet laws. -/
theorem everyStepKeepsTheOutletLaws : Obligations.EveryStepKeepsTheOutletLaws := by
  intro s t h
  obtain rfl | ⟨c, rest, hc⟩ := step_next h
  · exact ⟨id, id, fun _ => id⟩
  · obtain ⟨h1, h2, h3⟩ := exec_keepsOutletLaws hc
    exact ⟨h1, h2, h3⟩

/-! ### Tallies and the plan -/

/-- Tallies kept within their bounds (O60). -/
theorem Change.bounded {c : Instr} {s t : State} (h : Change c s t) (hb : s.tau.bounded) : t.tau.bounded := by
  cases h with
  | aside h => exact ⟨by rw [h.keyTallies]; exact hb.1, by rw [h.outletTallies]; exact hb.2.1, by rw [h.deviceTally]; exact hb.2.2⟩
  | counts h => exact h.bounded hb
  | deed h => exact h.work.tau.bounded hb
  | drains => exact (Work.drainCheck s).tau.bounded hb
  | failsafe =>
    by_cases hs : s.service = .failsafe
    · rw [State.enterFailsafe_of_failsafe hs]
      exact hb
    · obtain ⟨gens, keys, he, hl⟩ := State.enterFailsafe_eq hs
      rw [he]
      exact hl.tallies.bounded hb
  | tracking =>
    obtain ⟨gens, keys, he, hl⟩ := s.trackingReset_eq
    rw [he]
    exact hl.tallies.bounded hb
  | clears _ h => exact h hb
  | @powerOn csLow _ =>
    have hk : ∀ k, vget (s.powerOn csLow).tau.keys k = KeyTally.zero := fun k => vget_replicate _ k
    have ho : ∀ o, vget (s.powerOn csLow).tau.outlets o = OutletTally.zero := fun o => vget_replicate _ o
    exact ⟨fun k => by rw [hk]; exact KeyTally.zero_bounded, fun o => by rw [ho]; exact OutletTally.zero_bounded, DeviceTally.zero_bounded⟩
  | _ => exact hb

/-- No tally falls but by a clear or a reset (O60). -/
theorem Change.le {c : Instr} {s t : State} (h : Change c s t) (hc : c.clearsTallies = false) (hr : c.resets = false) (hb : s.tau.bounded) : s.tau.le t.tau := by
  cases h with
  | aside h =>
    exact ⟨fun k => by rw [h.keyTallies]; exact KeyTally.le_refl _, fun o => by rw [h.outletTallies]; exact OutletTally.le_refl _,
      by rw [h.deviceTally]; exact DeviceTally.le_refl _⟩
  | counts h => exact h.le hb
  | deed h => exact h.work.tau.le hb
  | drains => exact (Work.drainCheck s).tau.le hb
  | failsafe =>
    by_cases hs : s.service = .failsafe
    · rw [State.enterFailsafe_of_failsafe hs]
      exact Tau.le_refl _
    · obtain ⟨gens, keys, he, hl⟩ := State.enterFailsafe_eq hs
      rw [he]
      exact hl.tallies.le hb
  | tracking =>
    obtain ⟨gens, keys, he, hl⟩ := s.trackingReset_eq
    rw [he]
    exact hl.tallies.le hb
  | clears h => rw [hc] at h; cases h
  | powerOn h => subst h; cases hr
  | _ => exact Tau.le_refl _

/-- The plan banks, the active bank and plan-valid of two states agree. -/
structure SamePlan (s t : State) : Prop where
  bank0 : t.rd.bank0 = s.rd.bank0
  bank1 : t.rd.bank1 = s.rd.bank1
  active : t.rd.active = s.rd.active
  planValid : t.rd.planValid = s.rd.planValid

theorem SamePlan.refl (s : State) : SamePlan s s := ⟨rfl, rfl, rfl, rfl⟩

theorem SamePlan.trans {s t u : State} (h : SamePlan s t) (k : SamePlan t u) : SamePlan s u :=
  ⟨k.bank0.trans h.bank0, k.bank1.trans h.bank1, k.active.trans h.active, k.planValid.trans h.planValid⟩

theorem SamePlan.of_rd_eq {s t : State} (h : t.rd = s.rd) : SamePlan s t := ⟨by rw [h], by rw [h], by rw [h], by rw [h]⟩

theorem Work.samePlan {s t : State} (h : Work t s) : SamePlan s t := ⟨h.bank0, h.bank1, h.active, h.planValid⟩

/-- The plan changes by the writes of the plan and a reset alone (O60). -/
theorem Change.samePlan {c : Instr} {s t : State} (h : Change c s t) (hc : c.writesPlan = false) (hr : c.resets = false) : SamePlan s t := by
  cases h with
  | aside h => exact ⟨h.bank0, h.bank1, h.active, h.planValid⟩
  | deed h => exact h.work.samePlan
  | drains => exact (Work.drainCheck s).samePlan
  | failsafe =>
    by_cases hs : s.service = .failsafe
    · rw [State.enterFailsafe_of_failsafe hs]
      exact .refl s
    · obtain ⟨gens, keys, he, -⟩ := State.enterFailsafe_eq hs
      exact .of_rd_eq (by rw [he])
  | tracking =>
    obtain ⟨gens, keys, he, -⟩ := s.trackingReset_eq
    exact .of_rd_eq (by rw [he])
  | plan h => rw [hc] at h; cases h
  | powerOn h => subst h; cases hr
  | _ => exact .of_rd_eq rfl

/-- What every command keeps of the tallies and the plan. -/
structure KeepsReports (c : Instr) (s t : State) : Prop where
  bounded : s.tau.bounded → t.tau.bounded
  le : c.clearsTallies = false → c.resets = false → s.tau.bounded → s.tau.le t.tau
  plan : c.writesPlan = false → c.resets = false → SamePlan s t

theorem KeepsReports.refl {c : Instr} (s : State) : KeepsReports c s s := ⟨id, fun _ _ _ => Tau.le_refl _, fun _ _ => .refl s⟩

theorem KeepsReports.trans {c : Instr} {s t u : State} (h : KeepsReports c s t) (k : KeepsReports c t u) : KeepsReports c s u :=
  ⟨k.bounded ∘ h.bounded, fun hc hr hb => Tau.le_trans (h.le hc hr hb) (k.le hc hr (h.bounded hb)), fun hc hr => (h.plan hc hr).trans (k.plan hc hr)⟩

theorem Work.keepsReports {c : Instr} {s t : State} (h : Work t s) : KeepsReports c s t := ⟨h.tau.bounded, fun _ _ => h.tau.le, fun _ _ => h.samePlan⟩

theorem Chain.keepsReports {c : Instr} {s t : State} (h : Chain c s t) : KeepsReports c s t :=
  h.keeps .refl (fun _ _ _ => .trans) fun _ _ h => ⟨h.bounded, h.le, h.samePlan⟩

theorem exec_keepsReports {c : Instr} {s t : State} (h : exec c s = .next t) : KeepsReports c.meant s t := by
  obtain hc | ⟨w, n, stamp, len, cls, key, clamped, slot, ha, -, ht⟩ := exec_next h
  · exact hc.keepsReports
  · have hins : ∀ (u : State) (r : Record), KeepsReports c.meant u (u.inserted r) := fun u _ => ⟨id, fun _ _ _ => Tau.le_refl _, fun _ _ => .of_rd_eq rfl⟩
    rw [ht]
    exact ha.numbered.keepsReports.trans ((hins _ _).trans (Work.enterRecord _ _).keepsReports)

/-! ### The commands that clear, reset and write, by name -/

theorem outletRequest_resets {n : Nat} {o : Byte} {r : Instr} (h : outletRequest n o = some r) : r.resets = false := by
  unfold outletRequest at h
  split at h <;> cases h <;> rfl

/-- No request resets the part. -/
theorem decodeRequest_resets {code : Byte} {args : List Byte} {r : Instr} (h : decodeRequest code args = some r) : r.resets = false := by
  unfold decodeRequest at h
  dsimp only at h
  split at h
  · unfold decodeRequest0 at h
    split at h <;> cases h <;> rfl
  · unfold decodeRequest1 at h
    split at h
    · cases h; rfl
    · cases h; rfl
    · exact outletRequest_resets h
  · unfold decodeRequest2 at h
    split at h <;> cases h <;> rfl
  · unfold decodeRequest3 at h
    split at h <;> cases h <;> rfl
  · split at h <;> cases h; rfl
  · unfold decodeRequest5 at h
    split at h <;> cases h <;> rfl
  · split at h <;> cases h; rfl
  · split at h <;> cases h; rfl
  · cases h

theorem judgePortFrame_request {bytes : List Byte} {extra : Nat} {r : Instr} (h : judgePortFrame bytes extra = .request r) : ∃ code args, decodeRequest code args = some r := by
  unfold judgePortFrame at h
  split at h
  · next code len rest =>
    dsimp only at h
    split at h
    · cases h
    split at h
    · cases h
    split at h
    · cases h
    · next hd =>
      cases h
      exact ⟨_, _, hd⟩
  · cases h

/-- A command means itself, or the request that its bytes are. -/
theorem meant_cases (c : Instr) : c.meant = c ∨ ∃ bytes extra, c = .badPortFrame bytes extra ∧ judgePortFrame bytes extra = .request c.meant := by
  cases c
  case badPortFrame bytes extra =>
    cases h : judgePortFrame bytes extra with
    | request r => exact .inr ⟨bytes, extra, rfl, by simp [Instr.meant, h]⟩
    | bad => exact .inl (by simp [Instr.meant, h])
    | unknown => exact .inl (by simp [Instr.meant, h])
  all_goals exact .inl rfl

theorem meant_resets {c : Instr} (h : ∀ csLow, c ≠ .powerOnReset csLow) : c.meant.resets = false := by
  obtain hm | ⟨bytes, extra, -, hj⟩ := meant_cases c
  · rw [hm]
    cases c
    case powerOnReset csLow => exact absurd rfl (h csLow)
    all_goals rfl
  · obtain ⟨code, args, hd⟩ := judgePortFrame_request hj
    exact decodeRequest_resets hd

theorem clearsTallies_eq_false {c : Instr} (h : ∀ g i clr, c = .readTallies g i clr → clr.getLsbD 0 = false) : c.clearsTallies = false := by
  cases c
  case readTallies g i clr => exact h g i clr rfl
  all_goals rfl

theorem writesPlan_eq_false {c : Instr} (h1 : ∀ cls w h a ah, c ≠ .putClass cls w h a ah) (h2 : ∀ i k f ch, c ≠ .putRoute i k f ch) (h3 : c ≠ .commitPlan) :
    c.writesPlan = false := by
  cases c
  case putClass cls w h a ah => exact absurd rfl (h1 cls w h a ah)
  case putRoute i k f ch => exact absurd rfl (h2 i k f ch)
  case commitPlan => exact absurd rfl h3
  all_goals rfl

/-- Settles O60: every change that a command is made of keeps the tallies and the plan, but the kinds that clear, reset and write. -/
theorem talliesNeverFallAndPlansStand : Obligations.TalliesNeverFallAndPlansStand := by
  intro c s t h hb
  obtain ⟨hbound, hle, hplan⟩ := exec_keepsReports h
  refine ⟨hbound hb, fun hreset hread hframe => hle ?_ (meant_resets hreset) hb, fun hreset h1 h2 h3 hframe => ?_⟩
  · obtain hm | ⟨bytes, extra, hc, hj⟩ := meant_cases c
    · rw [hm]
      exact clearsTallies_eq_false hread
    · exact clearsTallies_eq_false fun g i clr he => hframe bytes extra g i clr hc (he ▸ hj)
  · have hw : c.meant.writesPlan = false := by
      obtain hm | ⟨bytes, extra, hc, hj⟩ := meant_cases c
      · rw [hm]
        exact writesPlan_eq_false h1 h2 h3
      · obtain ⟨k1, k2, k3⟩ := hframe bytes extra c.meant hc hj
        exact writesPlan_eq_false k1 k2 k3
    obtain ⟨g1, g2, g3, g4⟩ := hplan hw (meant_resets hreset)
    exact ⟨g1, g2, g3, g4⟩

end Sys2Proof.Machine
end


section
/-! PROOFS. The lowest FREE slot, the place in the belt-order list; and what every change keeps of the credit, the table, the reverse excess, the rest states and
the records. -/

namespace Sys2Proof.Machine

/-! ### FREE slots -/

theorem State.slotRecord_eq_none {s : State} {i : Slot} : s.slotRecord i = none ↔ ∀ r ∈ s.tc.records, r.slot ≠ i := by
  simp [State.slotRecord]

/-- The search from slot `i` on: every slot before the one found is taken. -/
theorem State.freeSlotFrom_spec (s : State) (fuel i : Nat) :
    match s.freeSlotFrom fuel i with
    | none => ∀ j, i ≤ j → j < i + fuel → s.slotRecord (Fin.ofNat 256 j) ≠ none
    | some slot => ∃ j, i ≤ j ∧ j < i + fuel ∧ slot = Fin.ofNat 256 j ∧ s.slotRecord slot = none ∧ ∀ k, i ≤ k → k < j → s.slotRecord (Fin.ofNat 256 k) ≠ none := by
  induction fuel generalizing i with
  | zero => intro j h1 h2; omega
  | succ fuel ih =>
    unfold State.freeSlotFrom
    dsimp only
    cases hi : s.slotRecord (Fin.ofNat 256 i) with
    | none => exact ⟨i, le_rfl, by omega, rfl, hi, fun k h1 h2 => by omega⟩
    | some r =>
      have hne : s.slotRecord (Fin.ofNat 256 i) ≠ none := by rw [hi]; exact Option.some_ne_none r
      have ih := ih (i + 1)
      dsimp only
      cases hf : s.freeSlotFrom fuel (i + 1) with
      | none =>
        rw [hf] at ih
        intro j h1 h2
        obtain rfl | h1 := Nat.eq_or_lt_of_le h1
        · exact hne
        · exact ih j h1 (by omega)
      | some slot =>
        rw [hf] at ih
        obtain ⟨j, h1, h2, h3, h4, h5⟩ := ih
        refine ⟨j, by omega, by omega, h3, h4, fun k k1 k2 => ?_⟩
        obtain rfl | k1 := Nat.eq_or_lt_of_le k1
        · exact hne
        · exact h5 k k1 k2

/-- The lowest FREE slot (R25). -/
theorem State.freeSlot_some {s : State} {slot : Slot} (h : s.freeSlot = some slot) :
    (∀ r ∈ s.tc.records, r.slot ≠ slot) ∧ ∀ i : Slot, i < slot → ∃ r ∈ s.tc.records, r.slot = i := by
  have hs := s.freeSlotFrom_spec 256 0
  rw [show s.freeSlotFrom 256 0 = some slot from h] at hs
  obtain ⟨j, -, hj, rfl, hfree, hlow⟩ := hs
  refine ⟨State.slotRecord_eq_none.mp hfree, fun i hi => ?_⟩
  have hij : i.val < j := by
    have : i.val < j % 256 := hi
    omega
  have htaken := hlow i.val (Nat.zero_le _) hij
  rw [show Fin.ofNat 256 i.val = i from Fin.ext (Nat.mod_eq_of_lt i.isLt)] at htaken
  by_contra hnone
  exact htaken (State.slotRecord_eq_none.mpr fun r hr e => hnone ⟨r, hr, e⟩)

/-- With fewer than 256 live records a slot is FREE (R23). -/
theorem State.freeSlot_isSome {s : State} (h : 1 ≤ s.freeCount) : ∃ slot, s.freeSlot = some slot := by
  cases hf : s.freeSlot with
  | some slot => exact ⟨slot, rfl⟩
  | none =>
    have hs := s.freeSlotFrom_spec 256 0
    rw [show s.freeSlotFrom 256 0 = none from hf] at hs
    have hall : ∀ i : Slot, i ∈ (s.tc.records.map (fun r => r.slot)).toFinset := by
      intro i
      have htaken := hs i.val (Nat.zero_le _) (by omega)
      rw [show Fin.ofNat 256 i.val = i from Fin.ext (Nat.mod_eq_of_lt i.isLt)] at htaken
      by_contra hi
      refine htaken (State.slotRecord_eq_none.mpr fun r hr e => hi ?_)
      rw [List.mem_toFinset, ← e]
      exact List.mem_map_of_mem hr
    have hcard : 256 ≤ s.tc.records.length := calc
      256 = (Finset.univ : Finset Slot).card := by simp
      _ ≤ (s.tc.records.map (fun r => r.slot)).toFinset.card := Finset.card_le_card fun i _ => hall i
      _ ≤ _ := (List.toFinset_card_le _).trans (List.length_map _).le
    unfold State.freeCount at h
    omega

/-! ### The place in the belt-order list -/

theorem insertByStamp_perm (r : Record) (l : List Record) : (insertByStamp r l).Perm (r :: l) := by
  induction l with
  | nil => exact .refl _
  | cons x xs ih =>
    unfold insertByStamp
    split
    · exact (ih.cons x).trans (.swap r x xs)
    · exact .refl _

@[simp] theorem mem_insertByStamp {r q : Record} {l : List Record} : q ∈ insertByStamp r l ↔ q = r ∨ q ∈ l :=
  (insertByStamp_perm r l).mem_iff.trans List.mem_cons

@[simp] theorem length_insertByStamp (r : Record) (l : List Record) : (insertByStamp r l).length = l.length + 1 := (insertByStamp_perm r l).length_eq

/-- A new record in a FREE slot keeps the slots apart. -/
theorem State.inserted_tableLaw {s : State} {r : Record} (h : s.tableLaw) (hr : ∀ q ∈ s.tc.records, q.slot ≠ r.slot) : (s.inserted r).tableLaw := by
  have hp : ((insertByStamp r s.tc.records).map (fun q => q.slot)).Perm (r.slot :: s.tc.records.map (fun q => q.slot)) := (insertByStamp_perm r _).map _
  refine hp.nodup_iff.mpr (List.nodup_cons.mpr ⟨fun hm => ?_, h⟩)
  obtain ⟨q, hq, e⟩ := List.mem_map.mp hm
  exact hr q hq e

/-! ### Records of one tag -/

/-- Of two live records with one slot there is one (R23). -/
theorem State.eq_of_slot {s : State} (h : s.tableLaw) {r q : Record} (hr : r ∈ s.tc.records) (hq : q ∈ s.tc.records) (e : q.slot = r.slot) : q = r :=
  List.inj_on_of_nodup_map h hq hr e

/-- Of two live records with one tag there is one (R24). -/
theorem State.eq_of_tag {s : State} (h : s.tableLaw) {r q : Record} (hr : r ∈ s.tc.records) (hq : q ∈ s.tc.records) (e : q.tag = r.tag) : q = r :=
  State.eq_of_slot h hr hq (congrArg Tag.slot e)

theorem Heir.tag {new old : Record} (h : Heir new old) : new.tag = old.tag := by
  simp only [Record.tag, h.slot, h.gen]

/-! ### The credit -/

/-- The credit law, whose parts are the link state, E, L and the number of live records (R148). -/
theorem State.creditLaw_iff (s : State) : s.creditLaw ↔ (s.ilc.link = .active → (s.ilc.l - s.ilc.e).toNat ≤ 256 - s.tc.records.length) ∧ (s.ilc.link ≠ .active → s.ilc.l = s.ilc.e) := by
  unfold State.creditLaw State.credit State.freeCount
  by_cases h : s.ilc.link = .active <;> simp [h]

theorem State.creditLaw_of_no_credit {s : State} (h : s.ilc.l = s.ilc.e) : s.creditLaw := by
  rw [State.creditLaw_iff, h]
  exact ⟨fun _ => by simp, fun _ => rfl⟩

/-- A change that leaves the link, E and L and brings no record. -/
theorem State.creditLaw_of_fewer {s t : State} (h : s.creditLaw) (hlink : t.ilc.link = s.ilc.link) (he : t.ilc.e = s.ilc.e) (hl : t.ilc.l = s.ilc.l)
    (hn : t.tc.records.length ≤ s.tc.records.length) : t.creditLaw := by
  rw [State.creditLaw_iff] at *
  rw [hlink, he, hl]
  exact ⟨fun ha => (h.1 ha).trans (by omega), h.2⟩

theorem Work.creditLaw {s t : State} (h : Work t s) (hs : s.creditLaw) : t.creditLaw := by
  obtain ⟨-, hl⟩ | ⟨-, -, -, hl⟩ := h.service
  · exact State.creditLaw_of_fewer hs (by rw [h.ilc]) (by rw [h.ilc]) hl h.records.length_le
  · exact State.creditLaw_of_no_credit hl

/-- A notice that passes checks 1 and 2 uses one of the FREE slots that the credit is covered by (R150 to R153). -/
theorem credit_used {e l n : Byte} (h1 : (n - e).toNat < 128) (h2 : 1 ≤ (l - n).toNat) (h3 : (l - n).toNat ≤ 128) : (l - (n + 1)).toNat + 1 ≤ (l - e).toNat := by
  bv_omega

theorem Change.creditLaw {c : Instr} {s t : State} (h : Change c s t) (hs : s.creditLaw) : t.creditLaw := by
  cases h with
  | aside h => exact State.creditLaw_of_fewer hs h.link h.e h.l (by rw [h.tc])
  | deed h => exact h.work.creditLaw hs
  | drains => exact (Work.drainCheck s).creditLaw hs
  | link h =>
    obtain h | ⟨hl, he, hlink⟩ := h
    · exact State.creditLaw_of_no_credit h
    · rw [State.creditLaw_iff] at *
      dsimp only
      rw [hl, he]
      by_cases ha : s.ilc.link = .active
      · exact ⟨fun _ => hs.1 ha, fun hn => absurd (hlink.resolve_right (by simp [ha])) hn⟩
      · rw [hs.2 ha]
        simp
  | credits _ ha hc =>
    rw [State.creditLaw_iff]
    exact ⟨fun _ => hc, fun hn => absurd ha hn⟩
  | numbers ha h1 h2 h3 =>
    have hused := credit_used h1 h2 h3
    rw [State.creditLaw_iff] at *
    exact ⟨fun _ => (Nat.le_of_succ_le hused).trans (hs.1 ha), fun hn => absurd ha hn⟩
  | failsafe =>
    by_cases hf : s.service = .failsafe
    · rw [State.enterFailsafe_of_failsafe hf]
      exact hs
    · obtain ⟨gens, keys, he, -⟩ := State.enterFailsafe_eq hf
      exact State.creditLaw_of_no_credit (by rw [he])
  | tracking =>
    obtain ⟨gens, keys, he, -⟩ := s.trackingReset_eq
    exact State.creditLaw_of_no_credit (by rw [he]; rfl)
  | powerOn => exact State.creditLaw_of_no_credit rfl
  | _ => exact State.creditLaw_of_fewer hs rfl rfl rfl le_rfl

theorem Chain.creditLaw {c : Instr} {s t : State} (h : Chain c s t) (hs : s.creditLaw) : t.creditLaw :=
  h.keeps (R := fun s t => s.creditLaw → t.creditLaw) (fun _ => id) (fun _ _ _ h k => k ∘ h) (fun _ _ => Change.creditLaw) hs

/-- An accepted notice finds a FREE slot, and its record leaves the credit covered. -/
theorem Accepted.creates {c : Instr} {s w : State} {n : Byte} {stamp : Pos} (h : Accepted c s w n stamp) (hs : s.creditLaw) (len : BitVec 16) (cls : ClassNo) (key : KeyNo)
    (clamped : Bool) : ∃ t, ({ w with ilc := { w.ilc with e := n + 1 } } : State).create n stamp len cls key clamped = .next t ∧ t.creditLaw := by
  have hw := (State.creditLaw_iff w).mp (h.chain.creditLaw hs)
  have hcovered := hw.1 h.active
  have hused := credit_used h.inOrder h.covered.1 h.covered.2
  obtain ⟨slot, hslot⟩ := State.freeSlot_isSome (s := { w with ilc := { w.ilc with e := n + 1 } }) (by unfold State.freeCount; dsimp only; omega)
  refine ⟨_, by unfold State.create; rw [hslot], (Work.enterRecord _ _).creditLaw ?_⟩
  rw [State.creditLaw_iff]
  refine ⟨fun _ => ?_, fun hn => absurd h.active hn⟩
  simp only [State.inserted, State.setRecords, length_insertByStamp]
  omega

theorem exec_progress (c : Instr) {s : State} (hs : s.creditLaw) : ∃ t, exec c s = .next t ∧ t.creditLaw := by
  obtain ⟨t, ho, hc⟩ | ⟨w, n, stamp, len, cls, key, clamped, ho, ha⟩ := exec_does c s
  · exact ⟨t, ho, hc.creditLaw hs⟩
  · rw [ho]
    exact ha.creates hs len cls key clamped

/-! ### The reverse excess, the rest states and the records -/

/-- The laws that a change keeps, and the records that it leaves (O58). -/
structure KeepsTableLaws (s t : State) : Prop where
  excess : s.excessLaw → t.excessLaw
  rest : s.restLaw → t.restLaw
  records : Inherits t.tc.records s.tc.records

theorem KeepsTableLaws.refl (s : State) : KeepsTableLaws s s := ⟨id, id, .refl _⟩

theorem KeepsTableLaws.trans {s t u : State} (h : KeepsTableLaws s t) (k : KeepsTableLaws t u) : KeepsTableLaws s u :=
  ⟨k.excess ∘ h.excess, k.rest ∘ h.rest, k.records.trans h.records⟩

/-- A change that leaves the belt, the parameters, the records, E, L and the service state. -/
theorem KeepsTableLaws.of_eq {s t : State} (hp : t.params = s.params) (hb : t.bpu = s.bpu) (htc : t.tc = s.tc) (he : t.ilc.e = s.ilc.e) (hl : t.ilc.l = s.ilc.l)
    (hs : t.service = s.service) : KeepsTableLaws s t where
  excess h := by rw [State.excessLaw, hp, hb]; exact h
  rest h := by rw [State.restLaw, htc, he, hl, hs]; exact h
  records := by rw [htc]; exact .refl _

/-- A change of the belt alone, or of the parameters, that evaluates the reverse excess. -/
theorem KeepsTableLaws.of_belt {s t : State} (hx : s.excessLaw → t.excessLaw) (htc : t.tc = s.tc) (hi : t.ilc = s.ilc) (hs : t.service = s.service) : KeepsTableLaws s t where
  excess := hx
  rest h := by rw [State.restLaw, htc, hi, hs]; exact h
  records := by rw [htc]; exact .refl _

/-- A change that leaves no record and no credit. -/
theorem KeepsTableLaws.of_empty {s t : State} (hx : s.excessLaw → t.excessLaw) (hr : t.tc.records = []) (hl : t.ilc.l = t.ilc.e) : KeepsTableLaws s t where
  excess := hx
  rest _ _ := ⟨hr, hl⟩
  records := by rw [hr]; exact List.SublistForall₂.nil

theorem Work.keepsTableLaws {s t : State} (h : Work t s) : KeepsTableLaws s t where
  excess hx := by rw [State.excessLaw, h.params, h.bpu]; exact hx
  rest hr ht := by
    obtain ⟨hs, hl⟩ | ⟨-, -, hn, hl⟩ := h.service
    · obtain ⟨h1, h2⟩ := hr (hs ▸ ht)
      exact ⟨Inherits.nil (h1 ▸ h.records), by rw [hl, h2, h.ilc]⟩
    · exact ⟨hn, hl⟩
  records := h.records

/-- A change of the link that leaves no credit where there was none. -/
theorem KeepsTableLaws.of_link {s : State} {i : Ilc} (h : s.restLaw → s.service = .standby ∨ s.service = .failsafe → i.l = i.e) : KeepsTableLaws s { s with ilc := i } where
  excess := id
  rest hr hs := ⟨(hr hs).1, h hr hs⟩
  records := .refl _

theorem Change.keepsTableLaws {c : Instr} {s t : State} (h : Change c s t) : KeepsTableLaws s t := by
  cases h with
  | aside h => exact .of_eq h.params h.bpu h.tc h.e h.l h.service
  | deed h => exact h.work.keepsTableLaws
  | drains => exact (Work.drainCheck s).keepsTableLaws
  | link h =>
    refine .of_link fun hr hs => ?_
    obtain h | ⟨hl, he, -⟩ := h
    · exact h
    · rw [hl, he]
      exact (hr hs).2
  | credits hserving =>
    refine .of_link fun _ hs => ?_
    rw [hserving] at hs
    simp at hs
  | numbers _ h1 h2 h3 =>
    refine .of_link fun hr hs => ?_
    have hl := (hr hs).2
    bv_omega
  | figures _ _ _ hh hx =>
    refine .of_belt (fun he => ?_) rfl rfl rfl
    obtain hx | ⟨h1, h2, h3⟩ := hx
    · exact hx
    · show _ = decide _
      dsimp only
      rw [h1, h2, h3, hh]
      exact he
  | moves _ _ _ hx => exact .of_belt (fun _ => hx) rfl rfl rfl
  | rebases => exact .of_belt (fun _ => by simp [State.excessLaw, State.rebase, ahead]) rfl rfl rfl
  | service hx =>
    refine ⟨id, fun hr hs => ?_, .refl _⟩
    obtain rfl | rfl | ⟨rfl, hf⟩ := hx
    · simp at hs
    · simp at hs
    · exact hr (.inr hf)
  | failsafe =>
    by_cases hf : s.service = .failsafe
    · rw [State.enterFailsafe_of_failsafe hf]
      exact .refl s
    · obtain ⟨gens, keys, he, -⟩ := State.enterFailsafe_eq hf
      exact .of_empty (by rw [he]; exact id) (by rw [he]) (by rw [he])
  | tracking =>
    obtain ⟨gens, keys, he, -⟩ := s.trackingReset_eq
    exact .of_empty (fun _ => by rw [he]; simp [State.excessLaw, ahead]) (by rw [he]) (by rw [he]; rfl)
  | powerOn => exact .of_empty (fun _ => show Bpu.reset.reverseExcess = decide (Params.reset.reverseAllow < ahead Bpu.reset.hwm Bpu.reset.position) by decide) rfl rfl
  | _ => exact .of_eq rfl rfl rfl rfl rfl rfl

theorem Chain.keepsTableLaws {c : Instr} {s t : State} (h : Chain c s t) : KeepsTableLaws s t :=
  h.keeps .refl (fun _ _ _ => .trans) fun _ _ => Change.keepsTableLaws

theorem Inherits.tableLaw {s t : State} (h : Inherits t.tc.records s.tc.records) (hs : s.tableLaw) : t.tableLaw := h.slots.nodup hs

/-- What an heir keeps of the record it was (R26, R27). -/
theorem Heir.kept {q r : Record} (h : Heir q r) :
    q.number = r.number ∧ q.stamp = r.stamp ∧ q.length = r.length ∧ q.flags.stampClamped = r.flags.stampClamped
      ∧ (r.flags.audit = true → q.flags.audit = true) ∧ (r.flags.amended = true → q.flags.amended = true)
      ∧ (r.flags.rerouted = true → q.flags.rerouted = true) ∧ (q.flags.amended = false → q.cls = r.cls ∧ q.key = r.key) :=
  ⟨h.number, h.stamp, h.length, h.stampClamped, h.audit, h.amended, h.rerouted, fun ha => h.owner.resolve_right (by simp [ha])⟩

/-- After a command the excess and rest laws hold again, and every live record is the heir of the one it was or the new one, whose slot was FREE. -/
theorem exec_records {c : Instr} {s t : State} (h : exec c s = .next t) :
    (s.excessLaw → t.excessLaw) ∧ (s.restLaw → t.restLaw)
      ∧ (Inherits t.tc.records s.tc.records ∨ ∃ r, (∀ q ∈ s.tc.records, q.slot ≠ r.slot) ∧ Inherits t.tc.records (insertByStamp r s.tc.records)) := by
  obtain hc | ⟨w, n, stamp, len, cls, key, clamped, slot, ha, hslot, ht⟩ := exec_next h
  · obtain ⟨h1, h2, h3⟩ := hc.keepsTableLaws
    exact ⟨h1, h2, .inl h3⟩
  · obtain ⟨h1, -, -⟩ := ha.numbered.keepsTableLaws
    have hwork := Work.enterRecord { w with ilc := { w.ilc with e := n + 1 } } (newRecord slot (vget w.tc.gens slot) n stamp len cls key clamped)
    have hfree : ∀ q ∈ s.tc.records, q.slot ≠ (newRecord slot (vget w.tc.gens slot) n stamp len cls key clamped).slot := fun q hq =>
      (State.freeSlot_some hslot).1 q (ha.table ▸ hq)
    rw [← ht] at hwork
    refine ⟨fun hx => hwork.keepsTableLaws.excess (h1 hx), fun _ hs => ?_, .inr ⟨_, hfree, ?_⟩⟩
    · obtain ⟨hser, -⟩ | ⟨hd, -⟩ := hwork.service
      · have hser : t.service = w.service := hser
        rw [hser, ha.serving] at hs
        simp at hs
      · have hd : w.service = .draining := hd
        rw [ha.serving] at hd
        cases hd
    · have hrec := hwork.records
      have htc : w.tc.records = s.tc.records := by rw [ha.table]
      rw [← htc]
      exact hrec

/-- The records of a new table that are heirs of those of an old one keep what R26 and R27 fix. -/
theorem Inherits.kept {s t : State} (h : Inherits t.tc.records s.tc.records) (hs : s.tableLaw) {r q : Record} (hr : r ∈ s.tc.records) (hq : q ∈ t.tc.records)
    (e : q.tag = r.tag) : Heir q r := by
  obtain ⟨p, hp, hqp⟩ := h.heir hq
  rw [State.eq_of_tag hs hr hp (hqp.tag.symm.trans e)] at hqp
  exact hqp

theorem step_credit {s : State} (hs : s.creditLaw) : ∃ t, step s = .next t ∧ t.creditLaw := by
  unfold step
  split
  · exact ⟨s, rfl, hs⟩
  · exact exec_progress _ (State.creditLaw_of_fewer hs rfl rfl rfl le_rfl)

/-- Settles O58: the credit that covers a notice is covered by a FREE slot, and every change keeps the laws and the records' names. -/
theorem everyStepKeepsTheCreditAndTableLaws : Obligations.EveryStepKeepsTheCreditAndTableLaws := by
  refine ⟨fun s => step_credit, fun s t h => ?_⟩
  obtain rfl | ⟨c, rest, hc⟩ := step_next h
  · exact ⟨id, id, id, fun hs r hr q hq e => ((Inherits.refl t.tc.records).kept hs hr hq e).kept⟩
  · obtain ⟨hx, hr, hi | ⟨new, hfree, hi⟩⟩ := exec_records hc
    · exact ⟨hi.tableLaw (s := { s with pending := rest }), hx, hr, fun hs r hr q hq e => (hi.kept (s := { s with pending := rest }) hs hr hq e).kept⟩
    · have hins : s.tableLaw → (({ s with pending := rest } : State).inserted new).tableLaw := fun hs => State.inserted_tableLaw (s := { s with pending := rest }) hs hfree
      refine ⟨fun hs => hi.tableLaw (s := ({ s with pending := rest } : State).inserted new) (hins hs), hx, hr, fun hs r hr q hq e => ?_⟩
      exact (hi.kept (s := ({ s with pending := rest } : State).inserted new) (hins hs) (mem_insertByStamp.mpr (.inr hr)) hq e).kept

end Sys2Proof.Machine
end


section
/-! PROOFS. The queue, the power-on values and laws, and the events of the belt and the link that come about at a tick. -/

namespace Sys2Proof.Machine

/-- Settles O1: the two branches of `step`. -/
theorem stepTakesTheFrontCommand : Obligations.StepTakesTheFrontCommand :=
  ⟨fun _ _ _ => rfl, fun s h => by unfold step; rw [h]⟩

/-! ### After power-on -/

theorem Outlet.reset_lamp : Outlet.reset.lamp = .off := by decide

theorem State.powerOn_lampLit (s : State) (csLow : Bool) (o : OutletNo) : (s.powerOn csLow).lampLit o = false := by
  unfold State.lampLit
  rw [s.outlet_powerOn csLow o, Outlet.reset_lamp]

theorem State.powerOn_hold (s : State) (csLow : Bool) : (s.powerOn csLow).hold = false := by
  rw [← Bool.not_eq_true, State.hold_eq_true_iff]
  simp only [s.outlet_powerOn csLow]
  rintro (h | ⟨o, h, -⟩)
  · cases h
  · cases h

theorem Bank.reset_entries : (∀ c : ClassNo, vget Bank.reset.classes c = { weight := 1, head := none, auditEnable := false, auditHead := none })
    ∧ ∀ i : RouteIx, vget Bank.reset.routes i = .stop :=
  ⟨fun c => vget_replicate _ c, fun i => vget_replicate _ i⟩

/-- Settles O3: the fields of the state after power-on. -/
theorem powerOnResetValues : Obligations.PowerOnResetValues := by
  intro csLow s
  have hattn : (s.powerOn csLow).attnA = false ∧ (s.powerOn csLow).attnB = false :=
    show ((0 : BitVec 8) &&& 0 &&& ~~~0 != 0) = false ∧ ((0 : BitVec 8) &&& 0 &&& 0 != 0) = false by decide
  refine ⟨s.powerOn csLow, rfl, rfl, rfl, rfl, rfl, rfl, rfl, rfl, rfl, rfl, rfl, rfl, rfl, rfl, rfl, rfl, rfl, rfl, rfl,
    ⟨rfl, rfl, rfl, rfl, rfl, rfl, rfl, rfl, rfl, rfl, rfl, rfl, rfl, rfl, rfl, rfl, rfl, rfl, rfl⟩, ?banks, rfl, rfl, rfl, rfl, ?outlets, rfl, rfl, rfl, rfl, fun i => rfl, rfl, rfl,
    s.powerOn_hold csLow, fun k => vget_replicate _ k, fun o => vget_replicate _ o, rfl, fun i => rfl, rfl, rfl, rfl, hattn.1, hattn.2, rfl⟩
  case banks =>
    intro b hb
    obtain rfl | hb := List.mem_cons.mp hb
    · exact Bank.reset_entries
    · rw [List.mem_singleton.mp hb]
      exact Bank.reset_entries
  case outlets =>
    intro o
    have hfire : (s.powerOn csLow).fire o = false := by
      unfold State.fire
      rw [s.outlet_powerOn csLow o]
      rfl
    rw [s.outlet_powerOn csLow o, s.powerOn_lampLit csLow o, hfire]
    exact ⟨rfl, rfl, rfl, rfl, rfl, rfl, rfl, rfl, rfl, rfl, rfl, rfl, rfl, rfl, rfl, rfl, Outlet.reset_lamp, rfl, rfl, rfl, rfl, rfl, rfl, rfl, rfl⟩

/-- An empty table with outlets that hold nothing keeps the books. -/
theorem State.booksLaw_of_empty {s : State} (hr : s.tc.records = []) (hc : ∀ o, (s.outlet o).committed = 0) (hset : ∀ o, (s.outlet o).strokeSet = none)
    (hreq : ∀ o, (s.outlet o).request = none) : s.booksLaw where
  slots := by rw [State.tableLaw, hr]; exact List.nodup_nil
  routes := by simp [hr]
  carries := by simp [hr]
  members := by simp [hr]
  leaders := by simp [hr]
  committed o := by rw [hc]; simp [State.unitsAt, hr]
  fired o := by rw [hset]; simp [hr]
  due o := by rw [hreq]; simp [hr]

/-- Settles O56: a reset part has no record, no credit and outlets at rest, and every figure is at its reset value. -/
theorem lawsHoldAfterReset : Obligations.LawsHoldAfterReset := by
  intro t ht
  obtain ⟨csLow, s, rfl⟩ : ∃ csLow s, t = State.powerOn s csLow := by
    obtain rfl | ⟨csLow, s, h⟩ := ht
    · exact ⟨false, .reset, rfl⟩
    · rw [exec_powerOnReset] at h
      cases h
      exact ⟨csLow, s, rfl⟩
  have hchange : Change (.powerOnReset csLow) s (s.powerOn csLow) := .powerOn rfl
  have hout := s.outlet_powerOn csLow
  have hcap : (s.powerOn csLow).capacityLaw := fun o => by rw [hout]; exact Nat.zero_le _
  have hslot : (s.powerOn csLow).slotLaw := (List.countP_eq_zero.mpr fun o _ => by rw [hout]; decide).symm
  have hrange : (s.powerOn csLow).rangeLaw :=
    ⟨Params.reset_inRange, fun o => by rw [hout]; exact ⟨OutletFields.reset_inRange, Nat.zero_le _⟩, Nat.zero_le _, Nat.zero_le _⟩
  have hbounded : (s.powerOn csLow).tau.bounded :=
    ⟨fun k => by rw [show vget (s.powerOn csLow).tau.keys k = KeyTally.zero from vget_replicate _ k]; exact KeyTally.zero_bounded,
      fun o => by rw [show vget (s.powerOn csLow).tau.outlets o = OutletTally.zero from vget_replicate _ o]; exact OutletTally.zero_bounded, DeviceTally.zero_bounded⟩
  have hexcess : (s.powerOn csLow).excessLaw := show Bpu.reset.reverseExcess = decide (Params.reset.reverseAllow < ahead Bpu.reset.hwm Bpu.reset.position) by decide
  refine ⟨hcap, hslot, List.nodup_nil, hexcess, fun _ => ⟨rfl, rfl⟩, State.creditLaw_of_no_credit rfl, hrange, hbounded, ?_, List.Pairwise.nil⟩
  exact State.booksLaw_of_empty rfl (fun o => by rw [hout]; rfl) (fun o => by rw [hout]; rfl) fun o => by rw [hout]; rfl

/-! ### Events taken -/

/-- An event that stands is dropped from the list and performed. -/
theorem State.takeDue_of {s : State} {e : Event} (h : e ∈ s.due) (hs : s.stands e = true) : s.takeDue e = (s.dropDue e).perform e := if_pos ⟨h, hs⟩

/-- What has not come about, or stands no more, changes nothing. -/
theorem State.takeDue_of_not {s : State} {e : Event} (h : ¬(e ∈ s.due ∧ s.stands e = true)) : s.takeDue e = s := if_neg h

theorem windowM_eq (n : Int) : windowM n = if n < 0 then 0 else if 4095 < n then 4095 else n.toNat := by
  unfold windowM
  split
  · omega
  · split <;> omega

theorem exec_speedWindowExpiry (s : State) : exec .speedWindowExpiry s = .next (s.takeDue .windowExpiry) := rfl

theorem exec_stall (s : State) : exec .stall s = .next (s.takeDue .stall) := rfl

/-- Settles O8: the events taken when they stand. -/
theorem speedWindowAndStallAtTheirFigures : Obligations.SpeedWindowAndStallAtTheirFigures := by
  intro s
  simp only [exec_speedWindowExpiry, exec_stall]
  refine ⟨fun ⟨hdue, htimer⟩ m hm => ?_, fun h => ?_, fun ⟨hdue, hraised⟩ => ?_, fun h => ?_⟩
  · rw [State.takeDue_of hdue (decide_eq_true htimer)]
    rw [← windowM_eq] at hm
    subst hm
    rfl
  · rw [State.takeDue_of_not fun ⟨h1, h2⟩ => h ⟨h1, of_decide_eq_true h2⟩]
  · rw [State.takeDue_of hdue (by simp [State.stands, hraised])]
    rfl
  · rw [State.takeDue_of_not fun ⟨h1, h2⟩ => h ⟨h1, by simpa [State.stands] using h2⟩]

theorem exec_syncTimeout (s : State) : exec .syncTimeout s = .next (s.takeDue .syncTimeout) := rfl

theorem exec_linkSilenceTimeout (s : State) : exec .linkSilenceTimeout s = .next (s.takeDue .linkSilence) := rfl

theorem Transmitter.dropWaiting_eq (t : Transmitter) : t.dropWaiting = match t with | .idle => .idle | .sending now _ => .sending now none := by cases t <;> rfl

theorem State.stands_syncTimeout (s : State) : s.stands .syncTimeout = true ↔ s.ilc.link = .syncing ∧ 0 < s.ilc.syncTimer ∧ s.ilc.syncFrames < 2 := by
  simp [State.stands, and_assoc]

theorem State.stands_linkSilence (s : State) : s.stands .linkSilence = true ↔ s.ilc.link = .active ∧ 0 < s.ilc.silence := by simp [State.stands]

/-- Settles O35: the two timeouts taken when they stand. -/
theorem linkTimeoutsGoOffline : Obligations.LinkTimeoutsGoOffline := by
  intro s i hi
  simp only [exec_syncTimeout, exec_linkSilenceTimeout, ← State.stands_syncTimeout, ← State.stands_linkSilence]
  have hoff : ∀ e, (s.dropDue e).goOffline = { s with due := s.due.erase e, ilc := i } := fun e => by
    rw [hi]
    unfold State.goOffline
    rw [Transmitter.dropWaiting_eq]
    rfl
  refine ⟨fun ⟨hdue, hs⟩ => ?_, fun h => ?_, fun ⟨hdue, hs⟩ => ?_, fun h => ?_⟩
  · rw [State.takeDue_of hdue hs]
    exact congrArg _ (hoff _)
  · rw [State.takeDue_of_not h]
  · rw [State.takeDue_of hdue hs]
    exact congrArg (fun u => Host.Outcome.next (State.raise u .link)) (hoff _)
  · rw [State.takeDue_of_not h]

end Sys2Proof.Machine
end


section
/-! PROOFS. The millisecond tick: what it counts, the events it brings about, and the leftover events that it takes first. -/

namespace Sys2Proof.Machine

/-! ### Events that come about -/

theorem mem_allEvents (e : Event) : e ∈ allEvents := by
  cases e <;> simp [allEvents]

theorem exec_millisecondTick (lines : LineSample) (s : State) : exec (.millisecondTick lines) s = .next (s.tickMs lines) := rfl

theorem State.holds_withDue (s : State) (d : List Event) (e : Event) : ({ s with due := d } : State).holds e = s.holds e := by cases e <;> rfl

/-- An event comes about at a tick exactly when its condition holds after the counting. -/
theorem State.mem_due_tickMs (s : State) (lines : LineSample) (e : Event) : e ∈ (s.tickMs lines).due ↔ (s.tickMs lines).holds e = true := by
  unfold State.tickMs
  dsimp only
  rw [State.holds_withDue]
  simp [mem_allEvents]

theorem Filter.reached_iff {f : Filter} {n : Nat} : f.reached n = true ↔ f.accepted ≠ none ∧ n ≤ f.count := by
  cases h : f.accepted <;> simp [Filter.reached, h]

/-- A known level is a level. -/
theorem eq_some_and_ne_none {α : Type} {x : Option α} {a : α} {p : Prop} : x = some a ∧ ¬x = none ∧ p ↔ x = some a ∧ p :=
  and_congr_right fun h => by simp [h]

/-- Settles O10: the condition of each event, as its rule has it. -/
theorem eventsComeAboutAtTheirTick : Obligations.EventsComeAboutAtTheirTick := by
  intro lines s
  refine ⟨s.tickMs lines, rfl, ?_⟩
  have hdue := s.mem_due_tickMs lines
  generalize s.tickMs lines = t at hdue
  have hsome : ∀ {α : Type} (x : Option α), x.isSome = true ↔ x ≠ none := fun x => by cases x <;> simp
  refine ⟨?_, ?_, ?_, ?_, ?_, fun o => ⟨?_, ?_, ?_, ?_, ?_, ?_, ?_, ?_, ?_, ?_, ?_⟩⟩
  all_goals
    rw [hdue]
    simp only [State.holds, Outlet.recovered, Outlet.homeLate, swapDebounce, Bool.and_eq_true, decide_eq_true_eq, beq_iff_eq, bne_iff_ne, ne_eq, Bool.not_eq_true', hsome,
      and_assoc, Filter.reached_iff, eq_some_and_ne_none]

/-! ### Counting -/

theorem Filter.sample_sampled (n : Nat) (x : Bool) (f : Filter) : Sampled (fun _ => false) n x f (f.sample n x) := by
  refine ⟨fun l hl he => ?_, fun l hl he => ?_, fun hn c hc => ?_⟩
  · simp [Filter.sample, hl, he]
  · simp [Filter.sample, hl, he]
  · simp only [Filter.sample, hn]
    have hcount : (if f.run = x ∧ f.count ≠ 0 then f.count + 1 else 1) = c := by rw [hc]; simp only [Nat.pos_iff_ne_zero]
    rw [hcount]

/-- A filter whose return to `false` is accepted within the tick. -/
theorem Filter.sampleRelease_sampled (n : Nat) (x : Bool) (f : Filter) : Sampled (fun level => !level) n x f (f.sampleRelease n x) := by
  obtain ⟨hsame, hdiffer, hacquire⟩ := f.sample_sampled n x
  refine ⟨fun l hl he => ?_, fun l hl he => ?_, fun hn c hc => ?_⟩
  · simp only [Filter.sampleRelease, hsame l hl he, hl, ← he]
    cases x <;> simp
  · simp only [Filter.sampleRelease, hdiffer l hl he, Filter.reached, Filter.accept]
    cases x <;> cases l <;> simp_all
  · simp only [Filter.sampleRelease, hacquire hn c hc, Filter.reached]
    split
    · next h =>
      split
      · next h' => obtain ⟨rfl, h', -⟩ := h'; cases h'
      · rfl
    · next h => simp [hn]

/-! ### Leftover events -/

/-- Where no event is left the tick counts at once. -/
theorem State.settle_nil {s : State} (h : s.due = []) : s.settle = s := by
  unfold State.settle
  rw [h]
  show { s with due := [] } = s
  rw [← h]

theorem State.rackRemoved_due (s : State) (o : OutletNo) : (s.rackRemoved o).due = s.due := by
  unfold State.rackRemoved
  dsimp only
  rw [apply_ite State.due, (Work.grantDecision _).due, ite_self, State.modOutlet_due, apply_ite State.due]
  have hlose : ∀ u : State, ((u.loseAcceptance o).loseSet o).due = u.due := fun u => (Work.loseSet _ o).due.trans (Work.loseAcceptance _ o).due
  split
  · rw [State.countOutlet_due]
    split
    · rw [State.countKey_due, hlose, State.modOutlet_due]
    · rw [hlose, State.modOutlet_due]
  · rw [hlose, State.modOutlet_due]

theorem State.pressRack_due (s : State) (o : OutletNo) : (s.pressRack o).due = s.due := by
  unfold State.pressRack
  dsimp only
  split
  · split <;> rfl
  · rfl
  · rfl

theorem State.composeBeacon_due (s : State) : s.composeBeacon.due = s.due := s.raiseIf_due _ _

/-- The events that taking an event brings about: the recovery's end or the home timeout at a HOME level (log 26). -/
def State.brings (s : State) : Event → List Event
  | .homeLevel o =>
    let x := (s.modOutlet o (fun x => { x with homeFilter := x.homeFilter.accept ((s.outlet o).homeFilter.accepted == some false) })).outlet o
    (if x.recovered then [Event.recoveryEnd o] else []) ++ (if x.homeLate then [Event.homeTimeout o] else [])
  | _ => []

theorem State.perform_due (s : State) (e : Event) : (s.perform e).due = s.due ++ s.brings e := by
  have hsame : ∀ {t : State}, t.due = s.due → t.due = s.due ++ [] := fun h => by rw [h, List.append_nil]
  cases e with
  | homeLevel o => exact List.append_assoc ..
  | rackRemoval o => exact hsame (s.rackRemoved_due o)
  | swapPress o =>
    refine hsame (apply_ite State.due .. |>.trans ?_)
    rw [State.pressRack_due, ite_self]
    rfl
  | passage o =>
    refine hsame (apply_ite State.due .. |>.trans ?_)
    rw [(Work.takePassage _ o).due, ite_self]
    rfl
  | strokeEnd o => exact hsame (Work.grantDecision _).due
  | recoveryEnd o => exact hsame (Work.grantDecision _).due
  | homeTimeout o => exact hsame (Work.enterFaulted s o).due
  | confirmExpiry o =>
    refine hsame ?_
    show (match (s.outlet o).strokeSet with | some set => s.miss o set | none => s).due = s.due
    split
    · exact (Work.miss ..).due
    · rfl
  | chuteBlocked o => exact hsame (Work.loseAcceptance _ o).due
  | beacon => exact hsame s.composeBeacon_due
  | _ => exact hsame rfl

/-- What an event on the list counts for: itself, and the one that a HOME level may bring about. -/
def Event.cost : Event → Nat
  | .homeLevel _ => 2
  | _ => 1

/-- The steps that are enough to take a list of events. -/
def costs (l : List Event) : Nat := (l.map Event.cost).sum

theorem Event.cost_bounds (e : Event) : 1 ≤ e.cost ∧ e.cost ≤ 2 := by
  unfold Event.cost
  split <;> omega

theorem costs_le (l : List Event) : costs l ≤ 2 * l.length := by
  induction l with
  | nil => exact Nat.zero_le _
  | cons e l ih =>
    have he := e.cost_bounds
    simp only [costs, List.map_cons, List.sum_cons, List.length_cons] at *
    omega

theorem State.brings_costs (s : State) (e : Event) : costs (s.brings e) + 1 ≤ e.cost := by
  cases e with
  | homeLevel o =>
    unfold State.brings
    dsimp only
    generalize (s.modOutlet o (fun x => { x with homeFilter := x.homeFilter.accept ((s.outlet o).homeFilter.accepted == some false) })).outlet o = x
    have hexclusive : x.recovered = true → x.homeLate = false := by
      simp only [Outlet.recovered, Outlet.homeLate, Bool.and_eq_true, beq_iff_eq, Bool.and_eq_false_iff, bne_eq_false_iff_eq]
      exact fun h => .inr h.2
    cases hr : x.recovered with
    | true => rw [hexclusive hr]; exact le_rfl
    | false => cases x.homeLate <;> simp [costs, Event.cost]
  | _ => exact le_rfl

/-- The state after the first event of the list has been taken, or dropped. -/
def State.settleOne (s : State) (e : Event) : State := if s.stands e then s.takeDue e else s.dropDue e

theorem State.settleUpTo_cons {s : State} {e : Event} {rest : List Event} (h : s.due = e :: rest) (fuel : Nat) :
    s.settleUpTo (fuel + 1) = (s.settleOne e).settleUpTo fuel := by
  rw [State.settleUpTo, h]
  rfl

theorem State.dropDue_due {s : State} {e : Event} {rest : List Event} (h : s.due = e :: rest) : (s.dropDue e).due = rest := by
  simp [State.dropDue, h]

theorem State.costs_settleOne {s : State} {e : Event} {rest : List Event} (h : s.due = e :: rest) : costs (s.settleOne e).due + 1 ≤ costs s.due := by
  have hrest : costs s.due = e.cost + costs rest := by rw [h]; simp [costs]
  have hpos := e.cost_bounds
  unfold State.settleOne
  split
  · next hs =>
    have hb := (s.dropDue e).brings_costs e
    rw [State.takeDue_of (by simp [h]) hs, State.perform_due, State.dropDue_due h]
    simp only [costs, List.map_append, List.sum_append] at *
    omega
  · rw [State.dropDue_due h]
    omega

/-- With enough steps the leftover events are taken whole, however many steps there are. -/
theorem State.settleUpTo_enough (n m : Nat) (s : State) (hn : costs s.due ≤ n) (hm : costs s.due ≤ m) : s.settleUpTo n = s.settleUpTo m := by
  have hnil : ∀ (k : Nat) (u : State), u.due = [] → u.settleUpTo k = u := fun k u h => by
    cases k with
    | zero => show { u with due := [] } = u; rw [← h]
    | succ k => rw [State.settleUpTo, h]
  induction n generalizing m s with
  | zero =>
    cases hs : s.due with
    | nil => rw [hnil _ _ hs, hnil _ _ hs]
    | cons e rest =>
      have := State.costs_settleOne hs
      omega
  | succ n ih =>
    cases hs : s.due with
    | nil => rw [hnil _ _ hs, hnil _ _ hs]
    | cons e rest =>
      have hcost := State.costs_settleOne hs
      cases m with
      | zero => omega
      | succ m =>
        rw [State.settleUpTo_cons hs, State.settleUpTo_cons hs]
        exact ih m _ (by omega) (by omega)

/-- The leftover events are taken one after another from the first. -/
theorem State.settle_cons {s : State} {e : Event} {rest : List Event} (h : s.due = e :: rest) : s.settle = (s.settleOne e).settle := by
  have hcost := State.costs_settleOne h
  have hall := costs_le s.due
  have hnext := costs_le (s.settleOne e).due
  unfold State.settle
  rw [State.settleUpTo_enough _ (costs s.due + 1) s hall (Nat.le_succ _), State.settleUpTo_cons h]
  exact State.settleUpTo_enough _ _ _ (by omega) hnext

/-- A pin table written with what it holds. -/
theorem vset_vget_self {α : Type} {n : Nat} (v : Vector α n) (i : Fin n) : vset v i (vget v i) = v := by
  refine vget_ext fun j => ?_
  rw [vget_vset]
  split
  · next h => rw [h]
  · rfl

/-- An event that stands is taken by its own command. -/
theorem exec_commandOf {s : State} {e : Event} (h : e ∈ s.due) (hs : s.stands e = true) : exec (s.commandOf e) s = .next (s.takeDue e) := by
  cases e with
  | homeLevel o =>
    rw [State.takeDue_of h hs]
    simp only [State.stands, Bool.and_eq_true, decide_eq_true_eq] at hs
    change execHomeLevelAccepted o _ s = _
    unfold execHomeLevelAccepted
    rw [if_neg ?_]
    · rfl
    · obtain ⟨a, ha⟩ := Option.isSome_iff_exists.mp hs.1
      rw [ha]
      cases a <;> decide
  | rackArrival o =>
    rw [State.takeDue_of h hs]
    simp only [State.stands, Bool.and_eq_true, decide_eq_true_eq, beq_iff_eq] at hs
    change execRackArrival o _ s = _
    unfold execRackArrival
    rw [if_neg (by simp [hs.1])]
    dsimp only
    rw [show (s.dropDue (.rackArrival o)).pins = s.pins from rfl, vset_vget_self]
    rfl
  | rackRemoval o =>
    rw [State.takeDue_of h hs]
    simp only [State.stands, Bool.and_eq_true, decide_eq_true_eq, beq_iff_eq] at hs
    change execRackRemoval o s = _
    unfold execRackRemoval
    rw [if_pos hs.1]
    rfl
  | swapPress o =>
    rw [State.takeDue_of h hs]
    simp only [State.stands, Bool.and_eq_true, decide_eq_true_eq, beq_iff_eq] at hs
    change execSwapPress o s = _
    unfold execSwapPress
    rw [if_neg (by simp [hs.1])]
    rfl
  | passage o =>
    rw [State.takeDue_of h hs]
    simp only [State.stands, Bool.and_eq_true, decide_eq_true_eq, beq_iff_eq] at hs
    change execPassage o s = _
    unfold execPassage
    rw [if_neg (by simp [hs.1])]
    rfl
  | _ => rfl

/-- The lines that a tick samples and the timers that it counts, of one outlet. -/
theorem Outlet.tick_sampled (p : Params) (home eye rack swap : Bool) (x : Outlet) :
    Sampled (fun _ => false) p.rackDebounce rack x.rackFilter (x.tick p home eye rack swap).rackFilter
      ∧ Sampled (fun _ => false) p.eyeFilter home x.homeFilter (x.tick p home eye rack swap).homeFilter
      ∧ Sampled (fun level => !level) p.eyeFilter eye x.eyeFilter (x.tick p home eye rack swap).eyeFilter
      ∧ Sampled (fun level => !level) 30 swap x.buttonFilter (x.tick p home eye rack swap).buttonFilter :=
  ⟨x.rackFilter.sample_sampled _ _, x.homeFilter.sample_sampled _ _, x.eyeFilter.sampleRelease_sampled _ _, x.buttonFilter.sampleRelease_sampled _ _⟩

theorem eyeLevel_eq (before after : Filter) : eyeLevel before after = if before.accepted = none then after.accepted else before.accepted := by
  unfold eyeLevel
  cases h : before.accepted <;> simp

theorem State.outlet_count (s : State) (lines : LineSample) (o : OutletNo) :
    (s.count lines).outlet o = (s.outlet o).tick s.params (lines.home.getLsbD o.val) (lines.eye.getLsbD o.val) (lines.rack.getLsbD o.val) (lines.swap.getLsbD o.val) :=
  State.outlet_mapOutlets _ _ o

theorem State.tickMs_of_settled {s : State} (h : s.due = []) (lines : LineSample) : s.tickMs lines = { s.count lines with due := allEvents.filter (s.count lines).holds } := by
  unfold State.tickMs
  rw [State.settle_nil h]

/-- Settles O9: a tick with no leftover event counts; a leftover event is dropped or taken by its own command first. -/
theorem millisecondTickCountsEveryTimer : Obligations.MillisecondTickCountsEveryTimer := by
  intro lines s
  refine ⟨fun hdue => ⟨s.tickMs lines, rfl, ?_⟩, fun e rest hdue => ⟨fun hs => ?_, fun hs => ?_⟩⟩
  · rw [State.tickMs_of_settled hdue]
    refine ⟨?_, ?_, ?_, fun o x y hx hy => ?_, ?_, ?_⟩
    · simp only [State.count, State.mapOutlets_bpu, Bpu.tick]
    · simp only [State.count, State.mapOutlets_oc]
    · simp only [State.count, State.mapOutlets_ilc]
      rfl
    · have hy : y = x.tick s.params (lines.home.getLsbD o.val) (lines.eye.getLsbD o.val) (lines.rack.getLsbD o.val) (lines.swap.getLsbD o.val) := by
        rw [hy, hx]
        exact s.outlet_count lines o
      obtain ⟨h1, h2, h3, h4⟩ := Outlet.tick_sampled s.params (lines.home.getLsbD o.val) (lines.eye.getLsbD o.val) (lines.rack.getLsbD o.val) (lines.swap.getLsbD o.val) x
      rw [← hy] at h1 h2 h3 h4
      refine ⟨h1, h2, h3, h4, fun level hlevel => ?_⟩
      rw [← eyeLevel_eq] at hlevel
      rw [hlevel, hy]
      have hheld : ∀ (set : Option StrokeSet) (a b : Nat), (if set.isSome = true then a else b) = if set = none then b else a := fun set a b => by cases set <;> simp
      simp only [Outlet.tick, hheld]
    · simp only [State.count, State.mapOutlets_pins]
    · simp only [State.count, State.mapOutlets]
  · rw [exec_millisecondTick, exec_millisecondTick]
    unfold State.tickMs
    rw [State.settle_cons hdue, State.settleOne, hs]
    have hdrop : s.dropDue e = { s with due := rest } := by simp [State.dropDue, hdue]
    rw [← hdrop]
    rfl
  · refine ⟨s.takeDue e, exec_commandOf (by simp [hdue]) hs, ?_⟩
    rw [exec_millisecondTick, exec_millisecondTick]
    unfold State.tickMs
    rw [State.settle_cons hdue, State.settleOne, hs]
    rfl

end Sys2Proof.Machine
end


section
/-! PROOFS. The steps of the encoder: forward and reverse ticks, illegal steps, and the entry to FAILSAFE; and RESET TRACKING. -/

namespace Sys2Proof.Machine

/-! ### ENCODER_STEP by the kind of step -/

/-- The state after the levels `a` and `b` have been accepted, before the decoder acts. -/
def State.accepting (s : State) (a b : Bool) : State :=
  { s with pins := { s.pins with encA := a, encB := b }, bpu := { s.bpu with encA := s.bpu.encA.accept a, encB := s.bpu.encB.accept b } }

theorem exec_encoderStep {s : State} {a₀ b₀ : Bool} (ha : s.bpu.encA.accepted = some a₀) (hb : s.bpu.encB.accepted = some b₀) (a b : Bool) :
    exec (.encoderStep a b) s = .next ((s.accepting a b).encoderStep (judgeStep s.params.encInvert a₀ b₀ a b)) := by
  change Host.Outcome.next (s.acceptEncoder a b) = _
  unfold State.acceptEncoder State.encoderLevels
  dsimp only
  rw [ha, hb]
  rfl

theorem judgeStep_forward {inv a₀ b₀ a b : Bool} (h : (a₀, b₀, a, b) ∈ (if inv then reverseRows else forwardRows)) : judgeStep inv a₀ b₀ a b = .forward := by
  revert inv a₀ b₀ a b
  decide

theorem judgeStep_reverse {inv a₀ b₀ a b : Bool} (h : (a₀, b₀, a, b) ∈ (if inv then forwardRows else reverseRows)) : judgeStep inv a₀ b₀ a b = .reverse := by
  revert inv a₀ b₀ a b
  decide

theorem judgeStep_illegal (inv a b : Bool) : judgeStep inv (!a) (!b) a b = .illegal := by
  revert inv a b
  decide

theorem judgeStep_still (inv a b : Bool) : judgeStep inv a b a b = .still := by
  revert inv a b
  decide

/-- A row of the reverse column changes one line alone. -/
theorem reverse_not_both {inv a₀ b₀ a b : Bool} (h : (a₀, b₀, a, b) ∈ (if inv then forwardRows else reverseRows)) : ¬(a = !a₀ ∧ b = !b₀) := by
  revert inv a₀ b₀ a b
  decide

/-! ### The reverse excess and FAILSAFE -/

theorem State.enterFailsafe_bpu (s : State) : s.enterFailsafe.bpu = s.bpu := by
  by_cases h : s.service = .failsafe
  · rw [State.enterFailsafe_of_failsafe h]
  · obtain ⟨gens, keys, he, -⟩ := State.enterFailsafe_eq h
    rw [he]

/-- The reverse excess as R8 evaluates it. -/
theorem State.judgeExcess_bpu (s : State) :
    s.judgeExcess.bpu = { s.bpu with reverseExcess := decide (s.params.reverseAllow < ahead s.bpu.hwm s.bpu.position) } := by
  unfold State.judgeExcess
  dsimp only
  split
  · exact State.enterFailsafe_bpu _
  · rfl

/-- TRACK LOSS is raised only where the excess becomes true (R8). -/
theorem State.judgeExcess_quiet {s : State} (h : s.bpu.reverseExcess = true ∨ ahead s.bpu.hwm s.bpu.position ≤ s.params.reverseAllow) :
    s.judgeExcess = { s with bpu := { s.bpu with reverseExcess := decide (s.params.reverseAllow < ahead s.bpu.hwm s.bpu.position) } } := by
  unfold State.judgeExcess
  dsimp only
  rw [if_neg]
  obtain h | h := h
  · simp [h]
  · simp [Nat.not_lt.mpr h]

theorem State.judgeExcess_loss {s : State} (h : s.bpu.reverseExcess = false) (hx : s.params.reverseAllow < ahead s.bpu.hwm s.bpu.position) :
    s.judgeExcess = ({ s with bpu := { s.bpu with reverseExcess := true } } : State).trackLoss := by
  unfold State.judgeExcess
  simp [h, hx]

/-! ### What work keeps -/

theorem Work.keptByWork {s t : State} (h : Work t s) : KeptByWork t s where
  params := h.params
  time := h.time
  oc := h.oc
  sp := h.sp
  freeNext := h.freeNext
  pending := h.pending
  banks := ⟨h.bank0, h.bank1, h.active, h.planValid⟩
  planStatus := h.planStatus
  ilc := h.ilc
  outlets o := by
    obtain ⟨h1, h2, h3, h4, h5, h6, h7, h8, h9, h10, h11, -, -, -⟩ := h.outlet o
    exact ⟨h1, h2, h3, h4, h5, h6, h9, h10, h7, h8, h11⟩

/-- A position with no waypoint reaches none (R18). -/
theorem State.reachKind_of_none {s : State} {st : RecordState} {p : Pos} (h : ∀ r ∈ s.tc.records, r.waypoint ≠ some p) (act : State → Tag → State) :
    s.reachKind st p act = s := by
  have hnil : s.tc.records.filter (fun r => r.state == st && r.waypoint == some p) = [] :=
    List.filter_eq_nil_iff.mpr fun r hr => by simp [h r hr]
  unfold State.reachKind State.reachedIn
  rw [hnil]
  rfl

theorem State.reachWaypoints_of_none {s : State} (h : ∀ r ∈ s.tc.records, r.waypoint ≠ some s.bpu.position) : s.reachWaypoints = s := by
  unfold State.reachWaypoints
  simp only [State.reachKind_of_none h]

/-! ### Forward ticks -/

/-- The HWM moves when the position is beyond it (R7). -/
theorem hwm_eq (p h : Pos) : (if atOrBeyond p h then p else h) = if (p - h).toNat < 8388608 ∧ p ≠ h then p else h := by
  unfold atOrBeyond
  by_cases e : p = h
  · simp [e]
  · simp [e]

/-- Settles O5: the belt moves first, then the waypoints are work. -/
theorem forwardTickMovesThePosition : Obligations.ForwardTickMovesThePosition := by
  intro s a₀ b₀ a b ha hb hrow p h hp hh
  rw [← hwm_eq] at hh
  refine ⟨_, exec_encoderStep ha hb a b, ?_⟩
  rw [judgeStep_forward hrow]
  let u : State := { s.accepting a b with bpu := { (s.accepting a b).bpu with position := p, hwm := h, windowCount := s.bpu.windowCount + 1 } }
  have hu : (s.accepting a b).encoderStep .forward = u.judgeExcess.reachWaypoints := by
    rw [hp] at hh
    simp only [State.encoderStep, State.tickForward, u, hh, hp]
    rfl
  rw [hu]
  have hwork := Work.reachWaypoints u.judgeExcess
  have hbpu : u.judgeExcess.reachWaypoints.bpu = { s.bpu with
      encA := { s.bpu.encA with accepted := some a, count := 0 }
      encB := { s.bpu.encB with accepted := some b, count := 0 }
      position := p
      hwm := h
      reverseExcess := decide (s.params.reverseAllow < (h - p).toNat)
      windowCount := s.bpu.windowCount + 1 } := by
    rw [hwork.bpu, State.judgeExcess_bpu]
    rfl
  refine ⟨hbpu, fun hq => ?_, fun hnone hq => ?_⟩
  · rw [State.judgeExcess_quiet (s := u) hq] at hwork ⊢
    have hkept := hwork.keptByWork
    exact ⟨⟨hkept.params, hkept.time, hkept.oc, hkept.sp, hkept.freeNext, hkept.pending, hkept.banks, hkept.planStatus, hkept.ilc, hkept.outlets⟩, hwork.due⟩
  · rw [State.judgeExcess_quiet (s := u) hq, State.reachWaypoints_of_none hnone]
    rfl

/-! ### Reverse ticks and illegal steps -/

/-- The state of a reverse tick before the reverse excess is evaluated. -/
def State.backed (s : State) (a b : Bool) : State :=
  { s.accepting a b with bpu := { (s.accepting a b).bpu with position := s.bpu.position - 1, windowCount := s.bpu.windowCount - 1 } }

theorem State.encoderStep_reverse (s : State) (a b : Bool) : (s.accepting a b).encoderStep .reverse = (s.backed a b).judgeExcess := rfl

/-- The state of an illegal step before ENCODER FAULT is judged. -/
def State.erred (s : State) (a b : Bool) : State :=
  { s.accepting a b with bpu := { (s.accepting a b).bpu with errorLevel := min 31 (s.bpu.errorLevel + 1), windowIllegal := true } }

theorem State.encoderStep_illegal (s : State) (a b : Bool) :
    (s.accepting a b).encoderStep .illegal = if s.bpu.errorLevel = 15 then (s.erred a b).encoderFault else s.erred a b := rfl

/-- Settles O6: the belt moves back, or errs, and nothing else happens short of a fault. -/
theorem reverseTicksAndIllegalSteps : Obligations.ReverseTicksAndIllegalSteps := by
  refine ⟨fun s a₀ b₀ a b ha hb hrow p hp => ?_, fun s a b ha hb => ?_⟩
  · subst hp
    refine ⟨_, exec_encoderStep ha hb a b, ?_⟩
    rw [judgeStep_reverse hrow, State.encoderStep_reverse]
    refine ⟨?_, fun hq => ?_⟩
    · rw [State.judgeExcess_bpu]
      rfl
    · rw [State.judgeExcess_quiet (s := s.backed a b) hq]
      rfl
  · refine ⟨_, exec_encoderStep ha hb a b, ?_⟩
    rw [judgeStep_illegal, State.encoderStep_illegal]
    refine ⟨?_, fun hl => ?_⟩
    · split
      · exact State.enterFailsafe_bpu _
      · rfl
    · rw [if_neg hl]
      rfl

/-! ### The entry to FAILSAFE -/

/-- An entry to FAILSAFE from a state in which a fault has been counted (R168). -/
theorem State.enterFailsafe_entry {s t u : State} {dev : DeviceTally} (hu : u = { s with bpu := u.bpu, pins := u.pins, tau := { s.tau with device := dev } }) (hs : s.service ≠ .failsafe)
    (hb : u.tau.bounded) (ht : t = u.enterFailsafe) :
    t.service = .failsafe ∧ t.tc.records = [] ∧ t.freeCount = 256 ∧ t.hold = true
      ∧ (∀ i : Slot, vget t.tc.gens i = vget s.tc.gens i + BitVec.ofNat 4 (s.slotCount i))
      ∧ (∀ k : KeyNo, vget t.tau.keys k = { vget s.tau.keys k with lost := min 16777215 ((vget s.tau.keys k).lost + s.keyCount k) })
      ∧ (∀ o : OutletNo, t.outlet o = (s.outlet o).clearWork)
      ∧ t.tau.outlets = s.tau.outlets
      ∧ t.tau.latches = s.tau.latches ||| 0x80 ||| (if ∃ o : OutletNo, (s.outlet o).rack = .closing then 0x01 else 0)
      ∧ t.ilc = { s.ilc with l := s.ilc.e }
      ∧ t.tau.device = dev
      ∧ t = { s with bpu := t.bpu, tc := t.tc, outlets := t.outlets, ilc := t.ilc, service := t.service,
                     tau := { s.tau with keys := t.tau.keys, device := t.tau.device, latches := t.tau.latches }, pins := u.pins } := by
  have hus : u.service ≠ .failsafe := by rw [hu]; exact hs
  obtain ⟨gens, keys, he, hl⟩ := State.enterFailsafe_eq hus
  have hrecords : u.tc = s.tc := by rw [hu]
  have hkeys : u.tau.keys = s.tau.keys := by rw [hu]
  have hout : u.outlets = s.outlets := by rw [hu]
  have hmap : ∀ o, vget (u.mapOutlets fun _ => Outlet.clearWork).outlets o = (s.outlet o).clearWork := fun o => by
    rw [State.outlet, ← hout]
    exact State.outlet_mapOutlets u _ o
  have hfreed := hl.freed
  have hcounted := hl.counted hb
  rw [hrecords] at hfreed hcounted
  rw [hkeys] at hcounted
  have hclosing : u.closingLatch = if ∃ o : OutletNo, (s.outlet o).rack = .closing then 0x01 else 0 := by
    unfold State.closingLatch State.outlet
    rw [hout]
  have hservice : t.service = .failsafe := by rw [ht, he]
  refine ⟨hservice, by rw [ht, he], by rw [ht, he]; rfl, (State.hold_eq_true_iff t).mpr (.inl hservice), by rw [ht, he]; exact hfreed, by rw [ht, he]; exact hcounted,
    by rw [ht, he]; exact hmap, by rw [ht, he, hu], ?_, by rw [ht, he, hu], by rw [ht, he, hu], by rw [ht, he, hu]⟩
  rw [ht, he]
  dsimp only
  rw [hclosing, show u.tau.latches = s.tau.latches by rw [hu]]
  exact BitVec.or_assoc .. |>.trans ((congrArg _ (BitVec.or_comm ..)).trans (BitVec.or_assoc ..).symm)

/-- Settles O7: a fault is counted and, outside FAILSAFE, is an entry to it. -/
theorem failsafeEntryGivesUpEveryRecord : Obligations.FailsafeEntryGivesUpEveryRecord := by
  refine ⟨fun s a₀ b₀ a b ha hb hs hbounded hcause => ?_, fun s u a₀ b₀ a b ha hb hs hu => ⟨fun hrow hx hallow => ?_, fun haa hbb hl => ?_⟩⟩
  · refine ⟨_, exec_encoderStep ha hb a b, ?_⟩
    obtain ⟨hrow, hx, hallow⟩ | ⟨haa, hbb, hl⟩ := hcause
    · rw [judgeStep_reverse hrow, State.encoderStep_reverse, State.judgeExcess_loss (s := s.backed a b) hx hallow, if_neg (reverse_not_both hrow)]
      exact State.enterFailsafe_entry (s := s) (u := ({ s.backed a b with bpu := { (s.backed a b).bpu with reverseExcess := true } } : State).countDevice .trackLosses 1) rfl hs
        ((TauGrows.countDevice s .trackLosses 1).bounded hbounded) rfl
    · subst haa hbb
      have hjudge : judgeStep s.params.encInvert a₀ b₀ (!a₀) (!b₀) = .illegal := by simpa using judgeStep_illegal s.params.encInvert (!a₀) (!b₀)
      rw [hjudge, State.encoderStep_illegal, if_pos hl, if_pos (show (!a₀) = !a₀ ∧ (!b₀) = !b₀ from ⟨rfl, rfl⟩)]
      exact State.enterFailsafe_entry (s := s) (u := (s.erred (!a₀) (!b₀)).countDevice .encoderFaults 1) rfl hs ((TauGrows.countDevice s .encoderFaults 1).bounded hbounded) rfl
  · rw [exec_encoderStep ha hb a b, judgeStep_reverse hrow, State.encoderStep_reverse, State.judgeExcess_loss (s := s.backed a b) hx hallow, hu]
    exact congrArg _ (State.enterFailsafe_of_failsafe (s := State.countDevice _ _ _) hs)
  · subst haa hbb
    have hjudge : judgeStep s.params.encInvert a₀ b₀ (!a₀) (!b₀) = .illegal := by simpa using judgeStep_illegal s.params.encInvert (!a₀) (!b₀)
    rw [exec_encoderStep ha hb, hjudge, State.encoderStep_illegal, if_pos hl, hu]
    refine (congrArg _ (State.enterFailsafe_of_failsafe (s := (s.erred (!a₀) (!b₀)).countDevice .encoderFaults 1) hs)).trans ?_
    simp only [State.erred, hl]
    rfl

/-! ### RESET TRACKING -/

theorem exec_resetTracking {s : State} (h : s.sp.resetHold = false) : exec .resetTracking s = .next (s.trackingReset.answered .resetTracking { status := .ok, data := [0] }) := by
  have hserve := serve_of_resetHold_clear (c := .resetTracking) (body := fun s => s.trackingReset.serviceAnswer) h
  rw [State.serviceAnswer_eq (s := s.trackingReset) (x := .standby) rfl] at hserve
  exact hserve

/-- Settles O51: the part is emptied, the link and the belt brought to rest. -/
theorem resetTrackingGivesUpEveryRecord : Obligations.ResetTrackingGivesUpEveryRecord := by
  intro s hhold hb
  refine ⟨s.trackingReset, exec_resetTracking hhold, ?_⟩
  obtain ⟨gens, keys, he, hl⟩ := s.trackingReset_eq
  have hmap : ∀ o, vget (s.mapOutlets fun _ => Outlet.clearWork).outlets o = (s.outlet o).clearWork := State.outlet_mapOutlets s _
  generalize (s.mapOutlets fun _ => Outlet.clearWork).outlets = outlets at he hmap
  rw [he]
  refine ⟨rfl, hl.freed, hl.counted hb, hmap, rfl, ?_, rfl⟩
  simp only [Ilc.trackingReset, Transmitter.dropWaiting_eq] <;> rfl

end Sys2Proof.Machine
end


section
/-! PROOFS. Walks by one equation; what walks, carries and retirements leave of the paddles and the rack counts (`Paperwork`); and that a shut outlet is left with
no record waiting (R106). -/

namespace Sys2Proof.Machine

/-! ### A walk by its parts -/

/-- A walk of a cluster from a start index, its members seen and its result written. -/
def State.walkedFrom (s : State) (leader : Tag) (lead : Record) (audit : Bool) (start : Option RouteIx) : State :=
  (s.mapRecords (fun r => r.leaderTag == leader) (Record.walked (s.walkChain lead.stamp (s.membersOf leader) start).2 audit)).applyWalk leader lead.cls
    (s.walkChain lead.stamp (s.membersOf leader) start).1

/-- The audit sampler with another value. -/
def State.withSampler (s : State) (v : BitVec 12) : State := { s with rd := { s.rd with sampler := v } }

/-- A walk reads the active bank and the acceptance test alone (R62, R68). -/
theorem State.walkFrom_congr {s t : State} {s0 : Pos} {ms ns : List Record} (hb : t.rd.activeBank = s.rd.activeBank) (ha : ∀ o, t.accept o s0 ns = s.accept o s0 ms) :
    ∀ (fuel : Nat) (i : RouteIx) (j : Bool) (last : Option RefusalReason), t.walkFrom s0 ns fuel i j last = s.walkFrom s0 ms fuel i j last
  | 0, _, _, _ => rfl
  | fuel + 1, i, j, last => by
    unfold State.walkFrom
    simp only [hb, ha, State.walkFrom_congr hb ha fuel]

theorem State.walkChain_congr {s t : State} {s0 : Pos} {ms ns : List Record} (hb : t.rd.activeBank = s.rd.activeBank) (ha : ∀ o, t.accept o s0 ns = s.accept o s0 ms)
    (start : Option RouteIx) : t.walkChain s0 ns start = s.walkChain s0 ms start := by
  unfold State.walkChain
  cases start with
  | none => rfl
  | some i => exact State.walkFrom_congr hb ha 16 i false none

theorem State.walkChain_withSampler (s : State) (v : BitVec 12) (s0 : Pos) (ms : List Record) (start : Option RouteIx) :
    (s.withSampler v).walkChain s0 ms start = s.walkChain s0 ms start :=
  State.walkChain_congr (s := s) (t := s.withSampler v) rfl (fun _ => rfl) start

/-- The sampler's value at a decision by a class entry, and whether it selects the cluster (R78, R79). -/
def State.sampledBy (s : State) (e : ClassEntry) : BitVec 12 := if e.auditEnable = true then advanceSampler s.rd.sampler else s.rd.sampler

def State.pickedBy (s : State) (e : ClassEntry) : Bool := decide (e.auditEnable = true ∧ (s.sampledBy e).toNat % 2 ^ s.params.auditRate = 0 ∧ e.auditHead ≠ none)

/-- A decision walk (R63, R78, R79). -/
theorem State.decisionWalk_of_find {s : State} {leader : Tag} {lead : Record} (h : s.find leader = some lead) :
    s.decisionWalk leader = (s.withSampler (s.sampledBy (s.classEntry lead.cls))).walkedFrom leader lead (s.pickedBy (s.classEntry lead.cls))
      (if s.pickedBy (s.classEntry lead.cls) = true then (s.classEntry lead.cls).auditHead else (s.classEntry lead.cls).head) := by
  unfold State.decisionWalk State.walk
  rw [h]
  dsimp only
  have hhead : ∀ x : Option RouteIx, x.isSome = decide (x ≠ none) := fun x => by cases x <;> rfl
  have hsample : s.sampleAudit .decision (s.classEntry lead.cls)
      = (s.sampledBy (s.classEntry lead.cls), decide ((s.classEntry lead.cls).auditEnable = true ∧ (s.sampledBy (s.classEntry lead.cls)).toNat % 2 ^ s.params.auditRate = 0)) := by
    unfold State.sampleAudit State.sampledBy
    by_cases he : (s.classEntry lead.cls).auditEnable = true
    · simp only [he, and_self, if_true, true_and, selects, ← beq_eq_decide]
    · simp only [he, and_false, false_and, if_false, decide_false, Bool.false_eq_true]
  have hpicked : (decide ((s.classEntry lead.cls).auditEnable = true ∧ (s.sampledBy (s.classEntry lead.cls)).toNat % 2 ^ s.params.auditRate = 0)
      && (s.classEntry lead.cls).auditHead.isSome) = s.pickedBy (s.classEntry lead.cls) := by
    unfold State.pickedBy
    rw [hhead]
    simp only [Bool.decide_and, Bool.and_assoc]
  rw [hsample]
  dsimp only
  rw [show (WalkKind.decision != .decision) = false from rfl, Bool.false_and, Bool.or_false, hpicked]
  unfold State.walkedFrom
  rw [State.walkChain_withSampler]
  rfl

/-- A re-route or amendment walk (R63, R81, R83): from the audit head under AUDIT, without the sampler. -/
theorem State.walk_again {s : State} {kind : WalkKind} {leader : Tag} {lead : Record} (hk : kind ≠ .decision) (h : s.find leader = some lead) :
    s.walk kind leader = s.walkedFrom leader lead false
      (if lead.flags.audit = true ∧ (s.classEntry lead.cls).auditHead ≠ none then (s.classEntry lead.cls).auditHead else (s.classEntry lead.cls).head) := by
  unfold State.walk
  rw [h]
  dsimp only
  have hsample : s.sampleAudit kind (s.classEntry lead.cls) = (s.rd.sampler, false) := by simp [State.sampleAudit, hk]
  have hstart : (lead.flags.audit && (s.classEntry lead.cls).auditHead.isSome) = decide (lead.flags.audit = true ∧ (s.classEntry lead.cls).auditHead ≠ none) := by
    cases lead.flags.audit <;> cases (s.classEntry lead.cls).auditHead <;> simp
  rw [hsample]
  dsimp only
  rw [bne_iff_ne.mpr hk, Bool.true_and, Bool.false_or, Bool.false_and, hstart]
  simp only [decide_eq_true_eq]
  rfl

theorem State.walk_of_not_found {s : State} {kind : WalkKind} {leader : Tag} (h : s.find leader = none) : s.walk kind leader = s := by
  unfold State.walk
  rw [h]

/-- A walk, whatever starts it. -/
theorem State.walk_cases (s : State) (kind : WalkKind) (leader : Tag) :
    s.walk kind leader = s ∨ ∃ lead v audit start, s.find leader = some lead ∧ s.walk kind leader = (s.withSampler v).walkedFrom leader lead audit start := by
  cases h : s.find leader with
  | none => exact .inl (State.walk_of_not_found h)
  | some lead =>
    by_cases hk : kind = .decision
    · subst hk
      exact .inr ⟨lead, _, _, _, rfl, State.decisionWalk_of_find h⟩
    · exact .inr ⟨lead, s.rd.sampler, _, _, rfl, State.walk_again hk h⟩

/-! ### Records after a carry -/

/-- A record that no cluster field ties leaves the others as they are. -/
theorem State.retire_records {s : State} {c : RetireOutcome} {t : Tag} (h : ∀ r ∈ s.tc.records, r.tag = t → r.cluster = none) :
    (s.retire c t).tc.records = s.tc.records.filter (fun x => x.tag != t) := by
  unfold State.retire
  split
  · next hf =>
    refine (List.filter_eq_self.mpr fun r hr => ?_).symm
    have := List.find?_eq_none.mp hf r hr
    simpa using this
  · next r hf =>
    have hr := List.mem_of_find?_eq_some hf
    have ht : r.tag = t := by simpa using List.find?_some hf
    dsimp only
    unfold State.leaveCluster State.drainCheck
    rw [h r hr ht]
    dsimp only
    split <;> rfl

theorem State.giveBack_tc (s : State) (r : Record) : (s.giveBack r).tc = s.tc := by
  unfold State.giveBack State.release
  split
  · dsimp only
    split <;> rfl
  · rfl

/-- The records after one is carried: it rides, or it is gone where its end point is reached (R39, R41). -/
theorem State.carryRecord_records (s : State) (why : CarryReason) (t : Tag) :
    (s.carryRecord why t).tc.records = match s.find t with
      | none => s.tc.records
      | some r => if atOrBeyond s.bpu.position (s.endPoint r) = true then s.tc.records.filter (fun x => x.tag != t)
        else s.tc.records.map (fun x => if x.tag == t then x.carried why (s.endPoint r) else x) := by
  unfold State.carryRecord
  cases hf : s.find t with
  | none => rfl
  | some r =>
    dsimp only
    have hmap : ((s.giveBack r).mapRecords (fun x => x.tag == t) (Record.carried why (s.endPoint r))).tc.records
        = s.tc.records.map (fun x => if x.tag == t then x.carried why (s.endPoint r) else x) := by
      simp only [State.mapRecords, State.setRecords, State.giveBack_tc]
    split
    · rw [State.retire_records, hmap, List.filter_map]
      · have hkeep : ((fun x : Record => x.tag != t) ∘ fun x => if (x.tag == t) = true then x.carried why (s.endPoint r) else x) = fun x => x.tag != t := by
          funext x
          simp only [Function.comp]
          split
          · rfl
          · rfl
        rw [hkeep]
        refine (List.map_congr_left fun x hx => ?_).trans (List.map_id _)
        have : (x.tag == t) = false := by simpa using (List.mem_filter.mp hx).2
        simp [this]
      · intro x hx ht
        rw [hmap] at hx
        obtain ⟨y, -, rfl⟩ := List.mem_map.mp hx
        by_cases hy : (y.tag == t) = true
        · simp [hy, Record.carried]
        · simp [hy] at ht
          simp [ht] at hy
    · exact hmap

/-! ### No new record waiting -/

/-- Every record that waits at an outlet waited there before. -/
def NoneNewAt (o : OutletNo) (new old : State) : Prop := ∀ r ∈ new.tc.records, r.waitsAt o = true → r ∈ old.tc.records

theorem NoneNewAt.of_records_eq {o : OutletNo} {s t : State} (h : t.tc.records = s.tc.records) : NoneNewAt o t s := fun _ hr _ => h ▸ hr

theorem NoneNewAt.trans {o : OutletNo} {s t u : State} (h : NoneNewAt o u t) (k : NoneNewAt o t s) : NoneNewAt o u s := fun r hr hw => k r (h r hr hw) hw

/-- Records changed so that they do not wait at the outlet. -/
theorem NoneNewAt.mapRecords {o : OutletNo} {s : State} {p : Record → Bool} {f : Record → Record} (h : ∀ r ∈ s.tc.records, p r = true → (f r).waitsAt o = false) :
    NoneNewAt o (s.mapRecords p f) s := by
  intro q hq hw
  obtain ⟨r, hr, rfl⟩ := List.mem_map.mp (show q ∈ s.tc.records.map (fun r => if p r then f r else r) from hq)
  by_cases hp : p r = true
  · simp only [hp, if_true] at hw
    rw [h r hr hp] at hw
    cases hw
  · simpa [hp] using hr

theorem Record.waitsAt_iff {r : Record} {o : OutletNo} : r.waitsAt o = true ↔ (r.state = .routed ∨ r.state = .due) ∧ ∃ route, r.route = some route ∧ route.outlet = o := by
  simp [Record.waitsAt]

theorem NoneNewAt.carryRecord (o : OutletNo) (s : State) (why : CarryReason) (t : Tag) : NoneNewAt o (s.carryRecord why t) s := by
  intro q hq hw
  rw [State.carryRecord_records] at hq
  split at hq
  · exact hq
  · split at hq
    · exact List.mem_of_mem_filter hq
    · obtain ⟨r, hr, rfl⟩ := List.mem_map.mp hq
      by_cases ht : (r.tag == t) = true
      · simp only [ht, if_true] at hw
        cases hw
      · simpa [ht] using hr

theorem NoneNewAt.foldl {o : OutletNo} {α : Type} {f : State → α → State} (h : ∀ s a, NoneNewAt o (f s a) s) (l : List α) (s : State) : NoneNewAt o (l.foldl f s) s := by
  induction l generalizing s with
  | nil => exact .of_records_eq rfl
  | cons a l ih => exact (ih (f s a)).trans (h s a)

theorem State.detach_tc (s : State) (t : Tag) : (s.detach t).tc = s.tc := by
  unfold State.detach
  split
  · rfl
  · split
    · rfl
    · split <;> rfl

theorem NoneNewAt.carryCluster (o : OutletNo) (s : State) (why : CarryReason) (t : Tag) : NoneNewAt o (s.carryCluster why t) s :=
  (NoneNewAt.foldl (fun s t => .carryRecord o s why t) _ _).trans (.of_records_eq (by rw [State.detach_tc]))

theorem State.planCheck_tc (s : State) (c : ClassNo) (kind : CheckKind) (entry : RouteIx) : (s.planCheck c kind entry).tc = s.tc := by
  unfold State.planCheck
  dsimp only
  split <;> rfl

/-- An outlet that accepts is open (R69). -/
theorem State.accept_open {s : State} {o : OutletNo} {s0 : Pos} {ms : List Record} {f : Pos} (h : s.accept o s0 ms = .ok f) : (s.outlet o).notOpen = false := by
  unfold State.accept at h
  dsimp only at h
  split at h
  · cases h
  · next hn => simpa using hn

/-- A walk brings no record to wait at a shut outlet, where its cluster did not wait there. -/
theorem NoneNewAt.walk {o : OutletNo} {s : State} (hshut : (s.outlet o).notOpen = true) (kind : WalkKind) (leader : Tag)
    (hm : ∀ r ∈ s.tc.records, r.leaderTag = leader → r.waitsAt o = false) : NoneNewAt o (s.walk kind leader) s := by
  obtain h | ⟨lead, v, audit, start, -, h⟩ := s.walk_cases kind leader
  · rw [h]
    exact .of_records_eq rfl
  rw [h]
  have hseen : NoneNewAt o ((s.withSampler v).mapRecords (fun r => r.leaderTag == leader)
      (Record.walked ((s.withSampler v).walkChain lead.stamp ((s.withSampler v).membersOf leader) start).2 audit)) s :=
    .mapRecords fun r hr hp => hm r hr (by simpa using hp)
  unfold State.walkedFrom State.applyWalk
  split
  · next o' e f hres =>
    have hopen := State.accept_open (State.walkChain_accepted hres)
    have hne : o' ≠ o := fun e => by
      subst e
      rw [show (s.withSampler v).outlet o' = s.outlet o' from rfl, hshut] at hopen
      cases hopen
    refine NoneNewAt.trans (.mapRecords fun r _ _ => ?_) hseen
    simp [Record.waitsAt, hne]
  · exact NoneNewAt.trans (.carryCluster o _ _ _) hseen
  · exact NoneNewAt.trans (.carryCluster o _ _ _) hseen
  · exact NoneNewAt.trans (.carryCluster o _ _ _) (.trans (.of_records_eq (by rw [State.planCheck_tc])) hseen)

theorem State.foldl_giveBack_tc (ms : List Record) (s : State) : (ms.foldl State.giveBack s).tc = s.tc := by
  induction ms generalizing s with
  | nil => rfl
  | cons r ms ih => exact (ih _).trans (s.giveBack_tc r)

theorem State.withdrawRoute_records (s : State) (leader : Tag) (mark : Flags → Flags) :
    (s.withdrawRoute leader mark).tc.records = s.tc.records.map (fun r => if r.leaderTag == leader then r.unrouted mark else r) := by
  simp only [State.withdrawRoute, State.mapRecords, State.setRecords, State.foldl_giveBack_tc, State.detach_tc]

/-! ### Paperwork -/

/-- An outlet record that walks, carries and retirements have worked on: the rack, the units, the latest fire point and the request may differ, and a rack only by
the end of a CLOSING one (R98). -/
structure Shelved (new old : Outlet) : Prop where
  rest : new = { old with rack := new.rack, committed := new.committed, latest := new.latest, request := new.request }
  rack : new.rack = old.rack ∨ old.rack = .closing ∧ new.rack = .swapReady

theorem Shelved.refl (x : Outlet) : Shelved x x := ⟨rfl, .inl rfl⟩

theorem Shelved.trans {a b c : Outlet} (h : Shelved a b) (k : Shelved b c) : Shelved a c where
  rest := by
    rw [h.rest, k.rest]
  rack := by
    obtain h | ⟨h1, h2⟩ := h.rack <;> obtain k | ⟨k1, k2⟩ := k.rack
    · exact .inl (h.trans k)
    · exact .inr ⟨k1, h.trans k2⟩
    · exact .inr ⟨k ▸ h1, h2⟩
    · rw [k2] at h1
      cases h1

theorem Shelved.notOpen {new old : Outlet} (h : Shelved new old) (hs : old.notOpen = true) : new.notOpen = true := by
  have hrack : new.rack = .opened → old.rack = .opened := fun e => by
    obtain h | ⟨-, h2⟩ := h.rack
    · exact h ▸ e
    · rw [h2] at e
      cases e
  have he : new.enabled = old.enabled ∧ new.blocked = old.blocked ∧ new.paddle = old.paddle := by
    rw [h.rest]
    exact ⟨rfl, rfl, rfl⟩
  simp only [Outlet.notOpen, he, Bool.or_eq_true, Bool.not_eq_true', bne_iff_ne, ne_eq, beq_iff_eq] at *
  tauto

/-- Work that starts no stroke, holds no set, counts no rack and no figure of an outlet: walks, carries and retirements. -/
structure Paperwork (new old : State) : Prop where
  aa : new.aa = old.aa
  outlet : ∀ o, Shelved (new.outlet o) (old.outlet o)
  outletTallies : new.tau.outlets = old.tau.outlets
  racks : ∀ k, (vget new.tau.keys k).racks = (vget old.tau.keys k).racks

theorem Paperwork.trans {a b c : State} (h : Paperwork a b) (k : Paperwork b c) : Paperwork a c :=
  ⟨h.aa.trans k.aa, fun o => (h.outlet o).trans (k.outlet o), h.outletTallies.trans k.outletTallies, fun i => (h.racks i).trans (k.racks i)⟩

/-- A change that leaves the slots in use, the outlets and the tallies. -/
theorem Paperwork.of_eq {s t : State} (ha : t.aa = s.aa) (ho : t.outlets = s.outlets) (ht : t.tau.outlets = s.tau.outlets) (hk : t.tau.keys = s.tau.keys) : Paperwork t s :=
  ⟨ha, fun o => by rw [State.outlet, ho]; exact .refl _, ht, fun k => by rw [hk]⟩

theorem Paperwork.refl (s : State) : Paperwork s s := .of_eq rfl rfl rfl rfl

theorem Paperwork.setOutlet {s : State} {o : OutletNo} {x : Outlet} (h : Shelved x (s.outlet o)) : Paperwork (s.setOutlet o x) s where
  aa := rfl
  outlet j := by
    rw [State.outlet_setOutlet]
    split
    · next e => subst e; exact h
    · exact .refl _
  outletTallies := rfl
  racks _ := rfl

theorem Paperwork.foldl {α : Type} {f : State → α → State} (hf : ∀ s a, Paperwork (f s a) s) (l : List α) (s : State) : Paperwork (l.foldl f s) s := by
  induction l generalizing s with
  | nil => exact .refl s
  | cons a l ih => exact (ih (f s a)).trans (hf s a)

theorem Paperwork.mapRecords (s : State) (p : Record → Bool) (f : Record → Record) : Paperwork (s.mapRecords p f) s := .of_eq rfl rfl rfl rfl

theorem Paperwork.raise (s : State) (src : Source) : Paperwork (s.raise src) s := .of_eq rfl rfl rfl rfl

theorem Paperwork.release (s : State) (o : OutletNo) (n : Nat) : Paperwork (s.release o n) s := by
  unfold State.release
  dsimp only
  split
  · next h =>
    have hset : Paperwork (s.setOutlet o { s.outlet o with committed := (s.outlet o).committed - n, rack := .swapReady }) s := .setOutlet ⟨rfl, .inr ⟨h.1, rfl⟩⟩
    exact (Paperwork.raise _ _).trans hset
  · exact .setOutlet ⟨rfl, .inl rfl⟩

theorem Paperwork.giveBack (s : State) (r : Record) : Paperwork (s.giveBack r) s := by
  unfold State.giveBack
  split
  · exact .release ..
  · exact .refl s

theorem Shelved.clearLatest (x : Outlet) (t : Tag) : Shelved (x.clearLatest t) x := by
  unfold Outlet.clearLatest
  split
  · exact ⟨rfl, .inl rfl⟩
  · exact .refl x

theorem Shelved.cancelRequest (x : Outlet) (t : Tag) : Shelved (x.cancelRequest t) x := by
  unfold Outlet.cancelRequest
  split
  · split
    · exact ⟨rfl, .inl rfl⟩
    · exact .refl x
  · exact .refl x

theorem Shelved.renameLatest (x : Outlet) (old lead : Tag) : Shelved (x.renameLatest old lead) x := by
  unfold Outlet.renameLatest
  split
  · split
    · exact ⟨rfl, .inl rfl⟩
    · exact .refl x
  · exact .refl x

theorem Paperwork.detach (s : State) (t : Tag) : Paperwork (s.detach t) s := by
  unfold State.detach
  split
  · exact .refl s
  · split
    · exact .refl s
    · split
      · exact .setOutlet ((Shelved.cancelRequest _ _).trans (.clearLatest _ _))
      · exact .refl s

theorem Paperwork.drainCheck (s : State) : Paperwork s.drainCheck s := by
  unfold State.drainCheck
  split
  · exact .of_eq rfl rfl rfl rfl
  · exact .refl s

theorem Paperwork.leaveCluster (s : State) (r : Record) : Paperwork (s.leaveCluster r) s := by
  unfold State.leaveCluster
  split
  · exact .refl s
  · exact .refl s
  · dsimp only
    split
    · exact .mapRecords ..
    · exact Paperwork.trans (.setOutlet (.renameLatest _ _ _)) (.mapRecords ..)

theorem KeyTally.add_racks {t : KeyTally} {n : Nat} {c : KeyCount} (h : c ≠ .racks) : (t.add n c).racks = t.racks := by
  cases c with
  | racks => exact absurd rfl h
  | _ => rfl

theorem Paperwork.countKey (s : State) (k : KeyNo) {c : KeyCount} (h : c ≠ .racks) : Paperwork (s.countKey k c) s where
  aa := rfl
  outlet _ := .refl _
  outletTallies := rfl
  racks j := by
    simp only [State.countKey, vget_vset]
    split
    · next e => rw [KeyTally.add_racks h, e]
    · rfl

theorem RetireOutcome.count_ne_racks (c : RetireOutcome) : c.count ≠ .racks := by cases c <;> decide

theorem Paperwork.retire (s : State) (c : RetireOutcome) (t : Tag) : Paperwork (s.retire c t) s := by
  unfold State.retire
  split
  · exact .refl s
  · next r _ =>
    have hgone : Paperwork { s with tc := { records := s.tc.records.filter (fun x => x.tag != t), gens := vset s.tc.gens r.slot (vget s.tc.gens r.slot + 1) } } s := .of_eq rfl rfl rfl rfl
    exact (Paperwork.drainCheck _).trans ((Paperwork.leaveCluster _ _).trans ((Paperwork.countKey _ _ c.count_ne_racks).trans hgone))

theorem Paperwork.retireAll (s : State) (c : RetireOutcome) (ts : List Tag) : Paperwork (s.retireAll c ts) s := Paperwork.foldl (fun s t => .retire s c t) ts s

theorem Paperwork.carryRecord (s : State) (why : CarryReason) (t : Tag) : Paperwork (s.carryRecord why t) s := by
  unfold State.carryRecord
  split
  · exact .refl s
  · dsimp only
    split
    · exact (Paperwork.retire ..).trans ((Paperwork.mapRecords ..).trans (.giveBack ..))
    · exact (Paperwork.mapRecords ..).trans (.giveBack ..)

theorem Paperwork.carryCluster (s : State) (why : CarryReason) (t : Tag) : Paperwork (s.carryCluster why t) s :=
  (Paperwork.foldl (fun s t => .carryRecord s why t) _ _).trans (.detach s t)

theorem Paperwork.planCheck (s : State) (c : ClassNo) (kind : CheckKind) (entry : RouteIx) : Paperwork (s.planCheck c kind entry) s := by
  unfold State.planCheck
  dsimp only
  split
  · exact .of_eq rfl rfl rfl rfl
  · exact .of_eq rfl rfl rfl rfl

theorem Paperwork.walk (s : State) (kind : WalkKind) (leader : Tag) : Paperwork (s.walk kind leader) s := by
  obtain h | ⟨lead, v, audit, start, -, h⟩ := s.walk_cases kind leader
  · rw [h]
    exact .refl s
  rw [h]
  have hseen : ∀ f, Paperwork ((s.withSampler v).mapRecords (fun r => r.leaderTag == leader) f) s := fun f => .of_eq rfl rfl rfl rfl
  unfold State.walkedFrom State.applyWalk
  split
  · exact (Paperwork.mapRecords ..).trans (Paperwork.trans (.setOutlet ⟨rfl, .inl rfl⟩) (hseen _))
  · exact (Paperwork.carryCluster ..).trans (hseen _)
  · exact (Paperwork.carryCluster ..).trans (hseen _)
  · exact (Paperwork.carryCluster ..).trans ((Paperwork.planCheck ..).trans (hseen _))

theorem Paperwork.withdrawRoute (s : State) (leader : Tag) (mark : Flags → Flags) : Paperwork (s.withdrawRoute leader mark) s :=
  (Paperwork.mapRecords ..).trans ((Paperwork.foldl Paperwork.giveBack _ _).trans (.detach s leader))

theorem Paperwork.reroute (s : State) (leader : Tag) : Paperwork (s.reroute leader) s := (Paperwork.walk ..).trans (.withdrawRoute ..)

theorem Paperwork.loseAcceptance (s : State) (o : OutletNo) : Paperwork (s.loseAcceptance o) s :=
  Paperwork.foldl (fun s t => by split; exact .reroute s t; exact .refl s) _ _

/-! ### Loss of acceptance -/

/-- A re-route leaves no member of its cluster waiting at a shut outlet, and brings none to wait there. -/
theorem State.reroute_waiting {s : State} {o : OutletNo} (hshut : (s.outlet o).notOpen = true) {t : Tag} {r : Record} (hr : r ∈ (s.reroute t).tc.records)
    (hw : r.waitsAt o = true) : r ∈ s.tc.records ∧ r.leaderTag ≠ t := by
  have hback : ∀ q ∈ (s.withdrawRoute t (fun f => { f with rerouted := true })).tc.records, q.waitsAt o = true → q ∈ s.tc.records ∧ q.leaderTag ≠ t := by
    intro q hq hqw
    rw [State.withdrawRoute_records] at hq
    obtain ⟨p, hp, rfl⟩ := List.mem_map.mp hq
    by_cases hlead : (p.leaderTag == t) = true
    · simp only [hlead, if_true] at hqw
      cases hqw
    · simp only [hlead] at hqw ⊢
      exact ⟨hp, by simpa using hlead⟩
  have hshut' := ((Paperwork.withdrawRoute s t (fun f => { f with rerouted := true })).outlet o).notOpen hshut
  refine hback r (NoneNewAt.walk hshut' .reroute t (fun q hq hlead => ?_) r hr hw) hw
  by_contra hqw
  exact (hback q hq (by simpa using hqw)).2 hlead

/-- After a loss of acceptance at a shut outlet no record waits there (R106). -/
theorem State.loseAcceptance_noneWaiting {s : State} {o : OutletNo} (hshut : (s.outlet o).notOpen = true) : (s.loseAcceptance o).noneWaiting o := by
  have hfold : ∀ (l : List Tag) (u : State), (u.outlet o).notOpen = true → (∀ r ∈ u.tc.records, r.waitsAt o = true → r.leaderTag ∈ l) →
      (l.foldl (fun s t => if (s.membersOf t).any (fun r => r.waitsAt o) then s.reroute t else s) u).noneWaiting o := by
    intro l
    induction l with
    | nil =>
      intro u _ h r hr
      by_contra hw
      exact List.not_mem_nil (h r hr (by simpa using hw))
    | cons t l ih =>
      intro u hu h
      rw [List.foldl_cons]
      split
      · refine ih _ (((Paperwork.reroute u t).outlet o).notOpen hu) fun r hr hw => ?_
        obtain ⟨hr, hne⟩ := State.reroute_waiting hu hr hw
        exact (List.mem_cons.mp (h r hr hw)).resolve_left hne
      · next hnone =>
        refine ih _ hu fun r hr hw => (List.mem_cons.mp (h r hr hw)).resolve_left fun e => hnone ?_
        exact List.any_eq_true.mpr ⟨r, List.mem_filter.mpr ⟨hr, by simp [e]⟩, hw⟩
  refine hfold _ s hshut fun r hr hw => ?_
  rw [State.clustersAt, List.mem_eraseDups]
  exact List.mem_map_of_mem (List.mem_filter.mpr ⟨hr, hw⟩)

/-- Where no record waits a loss of acceptance does nothing. -/
theorem State.loseAcceptance_of_none {s : State} {o : OutletNo} (h : s.noneWaiting o) : s.loseAcceptance o = s := by
  have hnil : s.tc.records.filter (fun r => r.waitsAt o) = [] := List.filter_eq_nil_iff.mpr fun r hr => by simp [h r hr]
  unfold State.loseAcceptance State.clustersAt
  rw [hnil]
  rfl

end Sys2Proof.Machine
end


section
/-! PROOFS. The paddles, the racks and the chutes: strokes, recoveries, home timeouts, arrivals, presses, strays, and the chute's condition. -/

namespace Sys2Proof.Machine

/-! ### Outlets written one after another -/

theorem vset_vset {α : Type} {n : Nat} (v : Vector α n) (i : Fin n) (x y : α) : vset (vset v i x) i y = vset v i y := by
  refine vget_ext fun j => ?_
  simp only [vget_vset]
  split <;> rfl

theorem State.setOutlet_setOutlet (s : State) (o : OutletNo) (x y : Outlet) : (s.setOutlet o x).setOutlet o y = s.setOutlet o y := by
  simp only [State.setOutlet, vset_vset]

theorem State.withOutlet_eq (s : State) (o : OutletNo) (x : Outlet) : s.withOutlet o x = s.setOutlet o x := rfl

theorem State.setOutlet_outlet (s : State) (o : OutletNo) : s.setOutlet o (s.outlet o) = s := by
  simp only [State.setOutlet, State.outlet, vset_vget_self]

theorem State.withLatches_zero (s : State) : s.withLatches 0 = s := by
  unfold State.withLatches
  rw [show s.tau.latches ||| 0 = s.tau.latches from BitVec.or_zero]

/-- A source once raised stays raised under later raisings. -/
theorem latch_kept (x b m : BitVec 8) : (x ||| b ||| m) &&& b = b := by
  apply BitVec.eq_of_getLsbD_eq
  intro i _
  cases hb : b.getLsbD i <;> simp [hb]

/-! ### Strokes, recoveries and HOME levels -/

theorem exec_strokeEnd (o : OutletNo) (s : State) : exec (.strokeEnd o) s = .next (s.takeDue (.strokeEnd o)) := rfl

theorem exec_recoveryEnd (o : OutletNo) (s : State) : exec (.recoveryEnd o) s = .next (s.takeDue (.recoveryEnd o)) := rfl

theorem exec_homeTimeout (o : OutletNo) (s : State) : exec (.homeTimeout o) s = .next (s.takeDue (.homeTimeout o)) := rfl

theorem State.stands_strokeEnd (s : State) (o : OutletNo) :
    s.stands (.strokeEnd o) = true ↔ (s.outlet o).paddle = .stroke ∧ (s.outlet o).strokeFigure ≤ (s.outlet o).strokeTimer := by simp [State.stands]

theorem Outlet.recovered_iff (x : Outlet) :
    x.recovered = true ↔ x.paddle = .recover ∧ 1 ≤ x.recoverTimer ∧ x.recoverFigure ≤ x.recoverTimer ∧ x.homeFilter.accepted = some true := by
  simp [Outlet.recovered, and_assoc]

theorem Outlet.homeLate_iff (x : Outlet) : x.homeLate = true ↔ x.paddle = .recover ∧ x.homeFigure ≤ x.recoverTimer ∧ x.homeFilter.accepted ≠ some true := by
  simp [Outlet.homeLate, and_assoc]

theorem exec_homeLevelAccepted_new {s : State} {o : OutletNo} {home : Bool} (h : (s.outlet o).homeFilter.accepted ≠ some home) :
    exec (.homeLevelAccepted o home) s = .next ((s.dropDue (.homeLevel o)).acceptHome o home) := if_neg h

theorem exec_homeLevelAccepted_old {s : State} {o : OutletNo} {home : Bool} (h : (s.outlet o).homeFilter.accepted = some home) :
    exec (.homeLevelAccepted o home) s = .next s := if_pos h

/-- Settles O11: the events taken when they stand, each with the grant decision after it; and the HOME level with what it brings about. -/
theorem strokeAndRecoveryEndAtTheirFigures : Obligations.StrokeAndRecoveryEndAtTheirFigures := by
  refine ⟨fun o s => ?_, fun o home s => ⟨fun h => ?_, exec_homeLevelAccepted_old⟩⟩
  · simp only [exec_strokeEnd, exec_recoveryEnd, ← State.stands_strokeEnd, ← Outlet.recovered_iff]
    refine ⟨fun ⟨hdue, hs⟩ => ?_, fun h => by rw [State.takeDue_of_not h], fun ⟨hdue, hs⟩ => ?_, fun h => by rw [State.takeDue_of_not h]⟩
    · rw [State.takeDue_of hdue hs]
      obtain ⟨g, hg⟩ := State.grantDecision_spec (({ s with due := s.due.erase (.strokeEnd o), aa := { slotsInUse := s.aa.slotsInUse - 1 } } : State).withOutlet o
        { s.outlet o with paddle := .recover, recoverTimer := 0, recoverFigure := (s.outlet o).fields.recoverTime, homeFigure := (s.outlet o).fields.homeTimeout })
      exact ⟨_, g, rfl, hg⟩
    · rw [State.takeDue_of hdue hs]
      obtain ⟨g, hg⟩ := State.grantDecision_spec (({ s with due := s.due.erase (.recoveryEnd o) } : State).withOutlet o { s.outlet o with paddle := .idle })
      exact ⟨_, g, rfl, hg⟩
  · let x : Outlet := { s.outlet o with homeFilter := { accepted := some home, run := (s.outlet o).homeFilter.run, count := 0 } }
    have hx : ((s.dropDue (.homeLevel o)).modOutlet o (fun x => { x with homeFilter := x.homeFilter.accept home })).outlet o = x := State.outlet_modOutlet_self _ _ _
    have hrec : x.recovered = decide ((s.outlet o).paddle = .recover ∧ 1 ≤ (s.outlet o).recoverTimer ∧ (s.outlet o).recoverFigure ≤ (s.outlet o).recoverTimer ∧ home = true) := by
      rw [Bool.eq_iff_iff, Outlet.recovered_iff, decide_eq_true_iff]
      simp [x]
    have hlate : x.homeLate = decide ((s.outlet o).paddle = .recover ∧ (s.outlet o).homeFigure ≤ (s.outlet o).recoverTimer ∧ home = false) := by
      rw [Bool.eq_iff_iff, Outlet.homeLate_iff, decide_eq_true_iff]
      simp [x]
    refine ⟨_, exec_homeLevelAccepted_new h, ?_⟩
    unfold State.acceptHome
    dsimp only
    rw [hx, hrec, hlate]
    simp only [decide_eq_true_eq]
    exact ⟨rfl, rfl⟩

/-! ### Losses of acceptance by the part's own condition -/

/-- A loss of acceptance at an outlet shut by its new record `x`, with OUTLET raised: what it keeps of the part, and that no record is left waiting. -/
theorem State.loseAcceptance_after {s t : State} {o : OutletNo} {x : Outlet} (hshut : x.notOpen = true) (ht : t = ((s.setOutlet o x).raise .outlet).loseAcceptance o) :
    t.noneWaiting o ∧ t.tau.latches &&& 0x02 = 0x02 ∧ t.aa = s.aa ∧ (∀ j, Shelved (t.outlet j) (if o = j then x else s.outlet j)) ∧ Work t ((s.setOutlet o x).raise .outlet)
      ∧ (s.noneWaiting o → t = (s.withOutlet o x).withLatches 0x02) := by
  have hout : ∀ j, ((s.setOutlet o x).raise .outlet).outlet j = if o = j then x else s.outlet j := fun j => s.outlet_setOutlet o j x
  have hwork := Work.loseAcceptance ((s.setOutlet o x).raise .outlet) o
  have hpaper := Paperwork.loseAcceptance ((s.setOutlet o x).raise .outlet) o
  rw [← ht] at hwork hpaper
  obtain ⟨m, hm⟩ := hwork.tau.latches
  refine ⟨?_, ?_, hpaper.aa, fun j => hout j ▸ hpaper.outlet j, hwork, fun hnone => ?_⟩
  · rw [ht]
    exact State.loseAcceptance_noneWaiting (by rw [hout, if_pos rfl]; exact hshut)
  · rw [hm]
    exact latch_kept s.tau.latches 0x02 m
  · rw [ht, State.loseAcceptance_of_none (s := (s.setOutlet o x).raise .outlet) hnone]
    rfl

theorem Shelved.same {new old : Outlet} (h : Shelved new old) :
    new.paddle = old.paddle ∧ new.strokeSet = old.strokeSet ∧ new.fill = old.fill ∧ new.missRun = old.missRun ∧ new.fields = old.fields ∧ new.blocked = old.blocked
      ∧ new.rackKey = old.rackKey := by
  rw [h.rest]
  exact ⟨rfl, rfl, rfl, rfl, rfl, rfl, rfl⟩

/-- What work keeps, whatever the list of events due. -/
theorem KeptByWork.of_dropDue {s t : State} {e : Event} (h : KeptByWork t (s.dropDue e)) : KeptByWork t s :=
  ⟨h.params, h.time, h.oc, h.sp, h.freeNext, h.pending, h.banks, h.planStatus, h.ilc, h.outlets⟩

/-- A paddle in RECOVER that is FAULTED (R116). -/
theorem State.enterFaulted_of_recover {s : State} {o : OutletNo} (h : (s.outlet o).paddle = .recover) :
    s.enterFaulted o = ((s.setOutlet o { s.outlet o with paddle := .faulted }).raise .outlet).loseAcceptance o := by
  unfold State.enterFaulted
  dsimp only
  rw [if_neg (by simp [h]), if_neg (by simp [h])]
  rfl

theorem Outlet.notOpen_of_faulted {x : Outlet} (h : x.paddle = .faulted) : x.notOpen = true := by simp [Outlet.notOpen, h]

theorem Outlet.notOpen_of_blocked {x : Outlet} (h : x.blocked = true) : x.notOpen = true := by simp [Outlet.notOpen, h]

theorem Outlet.notOpen_of_disabled {x : Outlet} (h : x.enabled = false) : x.notOpen = true := by simp [Outlet.notOpen, h]

theorem Outlet.notOpen_of_rack {x : Outlet} (h : x.rack ≠ .opened) : x.notOpen = true := by simp [Outlet.notOpen, h]

/-- Settles O12: a home timeout faults the paddle, and acceptance is lost. -/
theorem homeTimeoutFaultsThePaddle : Obligations.HomeTimeoutFaultsThePaddle := by
  intro o s
  simp only [exec_homeTimeout, ← Outlet.homeLate_iff]
  refine ⟨fun hdue hp hf hh => ?_, fun h => by rw [State.takeDue_of_not h]⟩
  rw [State.takeDue_of hdue ((s.outlet o).homeLate_iff.mpr ⟨hp, hf, hh⟩)]
  refine ⟨_, rfl, ?_⟩
  generalize ht : (s.dropDue (.homeTimeout o)).perform (.homeTimeout o) = t
  have ht' : t = ((((s.dropDue (.homeTimeout o)).setOutlet o { s.outlet o with paddle := .faulted }).raise .outlet)).loseAcceptance o :=
    ht.symm.trans (State.enterFaulted_of_recover (s := s.dropDue (.homeTimeout o)) hp)
  obtain ⟨hnone, hlatch, haa, hout, hwork, hquiet⟩ := State.loseAcceptance_after (x := { s.outlet o with paddle := .faulted }) (Outlet.notOpen_of_faulted rfl) ht'
  have hset : Work (((s.dropDue (.homeTimeout o)).setOutlet o { s.outlet o with paddle := .faulted }).raise .outlet) (s.dropDue (.homeTimeout o)) :=
    (Work.raise _ _).trans (.setOutlet ⟨rfl, rfl, rfl, rfl, rfl, rfl, rfl, rfl, rfl, rfl, rfl, rfl, rfl, id⟩ id (by rw [show ((s.dropDue (.homeTimeout o)).outlet o).paddle = .recover from hp]; simp))
  have hall := hwork.trans hset
  have hsame : ∀ j, (t.outlet j).strokeSet = (s.outlet j).strokeSet ∧ (t.outlet j).fill = (s.outlet j).fill ∧ (t.outlet j).missRun = (s.outlet j).missRun
      ∧ (j ≠ o → (t.outlet j).paddle = (s.outlet j).paddle) := fun j => by
    have h := hout j
    split at h
    · next e =>
      subst e
      obtain ⟨h1, h2, h3, h4, -⟩ := h.same
      exact ⟨h2, h3, h4, fun hne => absurd rfl hne⟩
    · obtain ⟨h1, h2, h3, h4, -⟩ := h.same
      exact ⟨h2, h3, h4, fun _ => h1⟩
  have ho := (hout o).same.1
  rw [if_pos rfl] at ho
  exact ⟨ho, hnone, hlatch, haa, hsame, hall.bpu, hall.pins, hall.due, hall.keptByWork.of_dropDue, hquiet⟩

/-! ### The chute -/

theorem exec_chuteBlocked (o : OutletNo) (s : State) : exec (.chuteBlocked o) s = .next (s.takeDue (.chuteBlocked o)) := rfl

theorem exec_chuteClear (o : OutletNo) (s : State) : exec (.chuteClear o) s = .next (s.takeDue (.chuteClear o)) := rfl

theorem State.stands_chuteBlocked (s : State) (o : OutletNo) : s.stands (.chuteBlocked o) = true ↔ (s.outlet o).blocked = false := by simp [State.stands]

/-- Settles O18: a chute BLOCKED loses acceptance; one CLEAR changes nothing else. -/
theorem chuteBlocksAndClears : Obligations.ChuteBlocksAndClears := by
  intro o s
  simp only [exec_chuteBlocked, exec_chuteClear]
  refine ⟨fun hdue hb => ?_, fun h => ?_, fun hdue hb => ?_, fun h => ?_⟩
  · rw [State.takeDue_of hdue ((s.stands_chuteBlocked o).mpr hb)]
    refine ⟨_, rfl, ?_⟩
    generalize ht : (s.dropDue (.chuteBlocked o)).perform (.chuteBlocked o) = t
    have ht' : t = (((s.dropDue (.chuteBlocked o)).setOutlet o { s.outlet o with blocked := true }).raise .outlet).loseAcceptance o := ht.symm
    obtain ⟨hnone, hlatch, haa, hout, hwork, hquiet⟩ := State.loseAcceptance_after (x := { s.outlet o with blocked := true }) (Outlet.notOpen_of_blocked rfl) ht'
    have hsame : ∀ j, (t.outlet j).paddle = (s.outlet j).paddle ∧ (t.outlet j).strokeSet = (s.outlet j).strokeSet ∧ (t.outlet j).fill = (s.outlet j).fill
        ∧ (t.outlet j).fields = (s.outlet j).fields := fun j => by
      have h := hout j
      split at h
      · next e =>
        subst e
        obtain ⟨h1, h2, h3, -, h5, -⟩ := h.same
        exact ⟨h1, h2, h3, h5⟩
      · obtain ⟨h1, h2, h3, -, h5, -⟩ := h.same
        exact ⟨h1, h2, h3, h5⟩
    have ho := (hout o).same.2.2.2.2.2.1
    rw [if_pos rfl] at ho
    exact ⟨ho, hlatch, hnone, haa, hsame, hwork.bpu, hwork.pins, hwork.due, hquiet⟩
  · rw [State.takeDue_of_not fun ⟨h1, h2⟩ => h ⟨h1, (s.stands_chuteBlocked o).mp h2⟩]
  · rw [State.takeDue_of hdue hb]
    rfl
  · rw [State.takeDue_of_not h]

/-! ### The rack -/

theorem exec_rackArrival_new {s : State} {o : OutletNo} {key : KeyNo} (h : (s.outlet o).rackFilter.accepted ≠ some true) :
    exec (.rackArrival o key) s = .next (({ s.dropDue (.rackArrival o) with
      pins := { s.pins with lines := { s.pins.lines with keys := vset s.pins.lines.keys o key } } } : State).rackArrives o key) := if_neg h

theorem exec_rackArrival_old {s : State} {o : OutletNo} {key : KeyNo} (h : (s.outlet o).rackFilter.accepted = some true) : exec (.rackArrival o key) s = .next s := if_pos h

theorem exec_swapPress_new {s : State} {o : OutletNo} (h : (s.outlet o).buttonFilter.accepted ≠ some true) :
    exec (.swapPress o) s = .next ((s.dropDue (.swapPress o)).buttonPresses o) := if_neg h

theorem exec_swapPress_old {s : State} {o : OutletNo} (h : (s.outlet o).buttonFilter.accepted = some true) : exec (.swapPress o) s = .next s := if_pos h

/-- The rack after a press or a close, and whether RACK is raised (R96, R97). -/
theorem State.pressRack_eq (s : State) (o : OutletNo) :
    s.pressRack o = (s.withOutlet o { s.outlet o with rack := (s.outlet o).pressed.1 }).withLatches (if (s.outlet o).pressed.2 then 0x01 else 0) := by
  have hsame : ∀ k, (s.outlet o).rack = k → s.withOutlet o { s.outlet o with rack := k } = s := by
    rintro k rfl
    exact s.setOutlet_outlet o
  unfold State.pressRack Outlet.pressed
  dsimp only
  cases hr : (s.outlet o).rack with
  | opened =>
    dsimp only
    split
    · exact (State.withLatches_zero _).symm
    · rfl
  | full => rfl
  | absent | closing | swapReady =>
    exact ((State.withLatches_zero _).trans (hsame _ hr)).symm

theorem State.pressRack_setOutlet (s : State) (o : OutletNo) (x : Outlet) :
    (s.setOutlet o x).pressRack o = (s.withOutlet o { x with rack := x.pressed.1 }).withLatches (if x.pressed.2 then 0x01 else 0) := by
  rw [State.pressRack_eq, State.outlet_setOutlet_self, State.withOutlet_eq, State.setOutlet_setOutlet]
  rfl

theorem outletOf_val {b : Byte} {o : OutletNo} (h : b.toNat = o.val) : outletOf b = some o := by
  unfold outletOf
  rw [dif_pos (by rw [h]; exact o.isLt)]
  exact congrArg some (Fin.ext h)

/-- A request about an outlet that is named. -/
theorem State.onOutlet_of {s : State} {b : Byte} {o : OutletNo} (h : b.toNat = o.val) (act : OutletNo → State × Response) : s.onOutlet b act = act o := by
  unfold State.onOutlet
  rw [outletOf_val h]

theorem exec_outletClose {s t : State} {b : Byte} {o : OutletNo} {r : Response} (hhold : s.sp.resetHold = false) (hb : b.toNat = o.val) (h : s.closeOutlet o = (t, r)) :
    exec (.outletClose b) s = .next (t.answered (.outletClose b) r) := by
  have hserve := serve_of_resetHold_clear (c := .outletClose b) (body := fun s => s.onOutlet b s.closeOutlet) hhold
  rw [State.onOutlet_of hb, h] at hserve
  exact hserve

theorem exec_reopen {s t : State} {b : Byte} {o : OutletNo} {r : Response} (hhold : s.sp.resetHold = false) (hb : b.toNat = o.val) (h : s.reopenOutlet o = (t, r)) :
    exec (.reopen b) s = .next (t.answered (.reopen b) r) := by
  have hserve := serve_of_resetHold_clear (c := .reopen b) (body := fun s => s.onOutlet b s.reopenOutlet) hhold
  rw [State.onOutlet_of hb, h] at hserve
  exact hserve

/-- Settles O14: the rack by its state at each of its four events. -/
theorem rackStagesFollowArrivalPressCloseAndReopen : Obligations.RackStagesFollowArrivalPressCloseAndReopen := by
  refine ⟨fun o key s => ⟨fun h => exec_rackArrival_new h, exec_rackArrival_old⟩, fun o b s hb => ⟨fun h => ?_, exec_swapPress_old, fun h => ?_, fun hhold => ⟨fun h => ?_, fun h => ?_, fun h => ?_, fun h => ?_⟩⟩⟩
  · rw [exec_swapPress_new (by simp [h])]
    unfold State.buttonPresses
    dsimp only
    rw [if_pos (show ((s.dropDue (.swapPress o)).outlet o).buttonFilter.accepted = some false from h)]
    exact congrArg _ (State.pressRack_setOutlet (s.dropDue (.swapPress o)) o _)
  · rw [exec_swapPress_new (by simp [h])]
    unfold State.buttonPresses
    dsimp only
    rw [if_neg (by rw [show ((s.dropDue (.swapPress o)).outlet o).buttonFilter.accepted = none from h]; simp)]
    rfl
  · refine ⟨exec_outletClose hhold hb ?_, exec_reopen hhold hb ?_⟩
    · unfold State.closeOutlet
      rw [if_pos h]
      rfl
    · unfold State.reopenOutlet
      simp only [h]
      rfl
  · refine exec_outletClose hhold hb ?_
    unfold State.closeOutlet
    rw [if_neg h, State.pressRack_eq]
    rfl
  · refine exec_reopen hhold hb ?_
    unfold State.reopenOutlet
    obtain h | h := h <;> simp only [h] <;> rfl
  · refine exec_reopen hhold hb ?_
    have hjudge : (if (s.outlet o).fill < (s.outlet o).fields.capacity then (s.setOutlet o { s.outlet o with rack := .opened }, okWith [])
        else ((s.setOutlet o { s.outlet o with rack := .full }).raise .rack, okWith []))
        = ((s.withOutlet o { s.outlet o with rack := if (s.outlet o).fill < (s.outlet o).fields.capacity then .opened else .full }).withLatches
            (if (s.outlet o).fill < (s.outlet o).fields.capacity then 0 else 0x01), { status := .ok, data := [] }) := by
      split
      · rw [State.withLatches_zero]
        rfl
      · rfl
    unfold State.reopenOutlet
    obtain h | h := h <;> simp only [h] <;> exact hjudge

/-! ### Strays -/

theorem exec_passage_new {s : State} {o : OutletNo} (h : (s.outlet o).eyeFilter.accepted ≠ some true) : exec (.passage o) s = .next ((s.dropDue (.passage o)).eyeBlocks o) := if_neg h

theorem exec_passage_old {s : State} {o : OutletNo} (h : (s.outlet o).eyeFilter.accepted = some true) : exec (.passage o) s = .next s := if_pos h

/-- A passage from an accepted clear level (R102). -/
theorem State.eyeBlocks_of_clear {s : State} {o : OutletNo} (h : (s.outlet o).eyeFilter.accepted = some false) :
    s.eyeBlocks o = (s.setOutlet o { s.outlet o with eyeFilter := { accepted := some true, run := (s.outlet o).eyeFilter.run, count := 0 } }).takePassage o := by
  unfold State.eyeBlocks
  dsimp only
  rw [if_pos h]
  rfl

/-- Fill judged after it rose, with its record written (R89, R99). -/
theorem State.judgeFill_setOutlet (s : State) (o : OutletNo) (x : Outlet) (old : Nat) {full warn : Bool} (hfull : full = decide (x.rack = .opened ∧ x.fields.capacity ≤ x.fill))
    (hwarn : warn = decide (0 < x.fields.warnLevel ∧ old < x.fields.warnLevel ∧ x.fields.warnLevel ≤ x.fill)) :
    (s.setOutlet o x).judgeFill o old = (s.setOutlet o { x with rack := if full then .full else x.rack }).withLatches (if full || warn then 0x01 else 0) := by
  unfold State.judgeFill
  dsimp only
  rw [State.outlet_setOutlet_self, Bool.decide_or, ← hfull, ← hwarn, State.setOutlet_setOutlet]
  have hif : (if x.rack = .opened ∧ x.fields.capacity ≤ x.fill then s.setOutlet o { x with rack := .full } else s.setOutlet o x)
      = s.setOutlet o { x with rack := if full then .full else x.rack } := by
    cases full with
    | true => exact if_pos (of_decide_eq_true hfull.symm)
    | false => exact if_neg (of_decide_eq_false hfull.symm)
  rw [hif]
  cases full || warn
  · exact (State.withLatches_zero _).symm
  · rfl

/-- Settles O16: a stray counted, and its unit of fill where there is room. -/
theorem strayPassageTakesFreeRoomAlone : Obligations.StrayPassageTakesFreeRoomAlone := by
  intro o s hset
  refine ⟨fun h room full warn hroom hfull hwarn => ?_, exec_passage_old, fun h => ?_⟩
  · rw [exec_passage_new (by simp [h]), State.eyeBlocks_of_clear (s := s.dropDue (.passage o)) h]
    let x : Outlet := { s.outlet o with eyeFilter := { accepted := some true, run := (s.outlet o).eyeFilter.run, count := 0 } }
    have hstray : ((s.dropDue (.passage o)).setOutlet o x).takePassage o = ((s.dropDue (.passage o)).setOutlet o x).stray o := by
      unfold State.takePassage
      rw [State.outlet_setOutlet_self, show x.strokeSet = none from hset]
    refine congrArg _ (hstray.trans ?_)
    have hcount : ∀ y, (((s.dropDue (.passage o)).setOutlet o x).countOutlet o .strays 1).setOutlet o y = ((s.dropDue (.passage o)).countOutlet o .strays 1).setOutlet o y :=
      fun y => State.setOutlet_setOutlet ((s.dropDue (.passage o)).countOutlet o .strays 1) o x y
    have hx : (((s.dropDue (.passage o)).setOutlet o x).countOutlet o .strays 1).outlet o = x := State.outlet_setOutlet_self _ _ _
    unfold State.stray
    dsimp only
    rw [hx]
    cases room with
    | true =>
      have hcond : x.rack ≠ .absent ∧ x.fill + x.committed < x.fields.capacity := of_decide_eq_true hroom.symm
      rw [if_pos hcond, hcount, State.judgeFill_setOutlet (full := full) (warn := warn) _ o _ _ (by simpa using hfull) (by simpa using hwarn)]
      cases full <;> cases warn
      · exact State.withLatches_zero _
      · rfl
      · rfl
      · rfl
    | false =>
      have hcond : ¬(x.rack ≠ .absent ∧ x.fill + x.committed < x.fields.capacity) := of_decide_eq_false hroom.symm
      rw [if_neg hcond]
      simp only [Bool.false_and] at hfull hwarn
      subst hfull hwarn
      rfl
  · rw [exec_passage_new (by simp [h])]
    unfold State.eyeBlocks
    dsimp only
    rw [if_neg (by rw [show ((s.dropDue (.passage o)).outlet o).eyeFilter.accepted = none from h]; simp)]
    rfl

end Sys2Proof.Machine
end


section
/-! PROOFS. The parameter and outlet requests of the supervisor port, and its queries (spec/08). -/

namespace Sys2Proof.Machine

/-! ### Requests answered -/

/-- A request that the port takes, answered as its body says. -/
theorem exec_served {c : Instr} {body : State → State × Response} {s t : State} {r : Response} (hdef : exec c s = serve c body s) (hhold : s.sp.resetHold = false)
    (h : body s = (t, r)) : exec c s = .next (t.answered c r) := by
  rw [hdef, serve_of_resetHold_clear hhold, h]

theorem outletOf_none {b : Byte} (h : 16 ≤ b.toNat) : outletOf b = none := dif_neg (Nat.not_lt.mpr h)

theorem State.onOutlet_out {s : State} {b : Byte} (h : 16 ≤ b.toNat) (act : OutletNo → State × Response) : s.onOutlet b act = (s, refuse .range) := by
  unfold State.onOutlet
  rw [outletOf_none h]

/-- The limits of a clamp in their order. -/
theorem clamp_eq_ite {lo hi : Nat} (h : lo ≤ hi) (x : Nat) : clamp lo hi x = if x < lo then lo else if hi < x then hi else x := by
  unfold clamp
  split
  · omega
  · split <;> omega

theorem clampTrim_eq_ite (t : Int) : clampTrim t = if t < -128 then -128 else if 127 < t then 127 else t := by
  unfold clampTrim
  split
  · omega
  · split <;> omega

/-- OK and CLAMPED by whether the stored value is the one written. -/
theorem okOrClamped_beq (v w : Nat) (data : List Byte) : okOrClamped (v == w) data = { status := if v = w then .ok else .clamped, data := data } := by
  unfold okOrClamped
  simp only [beq_iff_eq]

theorem mem_of_lookup {α β : Type} [BEq α] [LawfulBEq α] {a : α} {b : β} {l : List (α × β)} (h : l.lookup a = some b) : (a, b) ∈ l := by
  induction l with
  | nil => cases h
  | cons x rest ih =>
    rw [List.lookup_cons] at h
    split at h
    · next e =>
      cases h
      rw [eq_of_beq e]
      exact List.mem_cons_self
    · exact List.mem_cons_of_mem x (ih h)

/-! ### Parameters -/

/-- The ranges of the parameters in the order of their numbers (spec/11). -/
def paramRanges : List (Nat × Nat) :=
  [(1000, 65535), (1, 15), (0, 1), (20, 200), (0, 65535), (100, 10000), (0, 255), (0, 1048575), (0, 1048575), (8, 1023), (0, 11), (0, 4095), (20, 1000),
    (1, 20), (100, 10000), (100, 5000), (1, 8), (1, 15), (10, 1000), (5, 500), (1, 50), (0, 32), (64, 65535)]

theorem paramRange_eq (n : Nat) : paramRange n = paramRanges[n]? := by
  obtain h | h := Nat.lt_or_ge n 23
  · interval_cases n <;> rfl
  · obtain ⟨k, rfl⟩ := Nat.exists_eq_add_of_le' h
    rfl

theorem standbyOnly_iff (n : Nat) : standbyOnly n = true ↔ n ∈ [0, 1, 2, 3, 7, 8] := by
  simp only [standbyOnly, Bool.or_eq_true, decide_eq_true_eq, beq_iff_eq, List.mem_cons, List.not_mem_nil, or_false]
  omega

/-- The writes that store the value and have no effect beyond their own field and the belt's counts. -/
def State.paramWrites (s : State) (v : Nat) : List (Nat × State) :=
  [(0, { s with params := { s.params with msDiv := v }, time := { divider := 0 } }),
    (1, { s with
      params := { s.params with encFilter := v }
      bpu := { s.bpu with encA := { s.bpu.encA with count := 0 }, encB := { s.bpu.encB with count := 0 } } }),
    (2, { s with params := { s.params with encInvert := decide (v = 1) } }),
    (3, { s with
      params := { s.params with window := v }
      bpu := { s.bpu with v := 0, windowTimer := 0, windowCount := 0, windowIllegal := false } }),
    (5, { s with params := { s.params with stallTime := v } }), (6, { s with params := { s.params with clearance := v } }),
    (7, { s with params := { s.params with q := v } }), (8, { s with params := { s.params with dEnd := v } }),
    (9, { s with params := { s.params with armMargin := v } }), (10, { s with params := { s.params with auditRate := v } }),
    (11, { s with rd := { s.rd with sampler := BitVec.ofNat 12 v } }), (12, { s with params := { s.params with rackDebounce := v } }),
    (13, { s with params := { s.params with eyeFilter := v } }), (14, { s with params := { s.params with chuteBlockTime := v } }),
    (15, { s with params := { s.params with chuteClearTime := v } }), (17, { s with params := { s.params with missLimit := v } }),
    (18, { s with params := { s.params with syncTimeout := v } }), (19, { s with params := { s.params with linkSilence := v } }),
    (20, { s with params := { s.params with beaconPeriod := v } }), (21, { s with params := { s.params with creditMargin := v } }),
    (22, { s with params := { s.params with noticeAge := v } })]

theorem State.storeParam_of_mem (s : State) (v : Nat) : ∀ e ∈ s.paramWrites v, s.storeParam e.1 v = e.2 := by
  simp only [State.paramWrites, List.forall_mem_cons, List.not_mem_nil, false_implies, implies_true, and_true]
  exact ⟨rfl, rfl, rfl, rfl, rfl, rfl, rfl, rfl, rfl, rfl, rfl, rfl, rfl, rfl, rfl, rfl, rfl, rfl, rfl, rfl, rfl⟩

/-- A value within its range is stored and answered (R184). -/
theorem State.setParam_stores {s : State} {b : Byte} {lo hi : Nat} (hr : paramRange b.toNat = some (lo, hi)) (hs : b.toNat ∉ [0, 1, 2, 3, 7, 8] ∨ s.service = .standby)
    (value : BitVec 24) :
    s.setParam b value = (s.storeParam b.toNat (clamp lo hi value.toNat),
      { status := if clamp lo hi value.toNat = value.toNat then .ok else .clamped, data := be 3 (clamp lo hi value.toNat) }) := by
  unfold State.setParam
  rw [hr]
  dsimp only
  rw [if_neg, okOrClamped_beq]
  rw [standbyOnly_iff]
  tauto

/-- A fall of REVERSE_ALLOW below the distance behind the HWM is a TRACK LOSS (R8): what it leaves. -/
theorem State.judgeExcess_lost {s : State} (h : s.bpu.reverseExcess = false) (hx : s.params.reverseAllow < ahead s.bpu.hwm s.bpu.position) :
    s.judgeExcess.service = .failsafe ∧ s.judgeExcess.params = s.params ∧ s.judgeExcess.bpu.reverseExcess = true
      ∧ s.judgeExcess.tau.device = { s.tau.device with trackLosses := min 16777215 (s.tau.device.trackLosses + 1) } ∧ (s.service ≠ .failsafe → s.judgeExcess.tc.records = []) := by
  rw [State.judgeExcess_loss h hx]
  unfold State.trackLoss
  by_cases hf : s.service = .failsafe
  · rw [State.enterFailsafe_of_failsafe (by exact hf)]
    exact ⟨hf, rfl, rfl, rfl, fun hn => absurd hf hn⟩
  · obtain ⟨gens, keys, he, -⟩ := State.enterFailsafe_eq (s := ({ s with bpu := { s.bpu with reverseExcess := true } } : State).countDevice .trackLosses 1) hf
    rw [he]
    exact ⟨rfl, rfl, rfl, rfl, fun _ => rfl⟩

/-- Settles O44: the refusals, and the store of a clamped value with what each number's rule adds. -/
theorem setParamClampsAndStores : Obligations.SetParamClampsAndStores := by
  intro s b value lo hi v answer hhold
  have hserve {t : State} {r : Response} (h : s.setParam b value = (t, r)) : exec (.setParam b value) s = .next (t.answered (.setParam b value) r) :=
    exec_served (body := fun s => s.setParam b value) rfl hhold h
  refine ⟨fun h => hserve ?_, fun h hs => hserve ?_, fun hr hs hv hans => ?_⟩
  · unfold State.setParam
    rw [paramRange_eq, List.getElem?_eq_none h]
    rfl
  · have hlt : b.toNat < paramRanges.length := by
      simp only [List.mem_cons, List.not_mem_nil, or_false] at h
      show b.toNat < 23
      omega
    unfold State.setParam
    rw [paramRange_eq, List.getElem?_eq_getElem hlt]
    dsimp only
    rw [if_pos ⟨(standbyOnly_iff _).mpr h, hs⟩]
    rfl
  · have hrange : paramRange b.toNat = some (lo, hi) := (paramRange_eq _).trans hr
    have hstore := State.setParam_stores hrange hs value
    rw [clamp_eq_ite (paramRange_le hrange), ← hv, ← hans] at hstore
    refine ⟨fun t ht => ?_, fun hb hq => ?_, fun hb hx hlt => ?_, fun hb => ?_⟩
    · rw [show s.storeParam b.toNat v = t from s.storeParam_of_mem v _ (mem_of_lookup ht)] at hstore
      exact hserve hstore
    · rw [hb] at hstore
      rw [hserve hstore, show s.storeParam 4 v = ({ s with params := { s.params with reverseAllow := v } } : State).judgeExcess from rfl, State.judgeExcess_quiet hq]
      rfl
    · rw [hb] at hstore
      exact ⟨_, hserve hstore, State.judgeExcess_lost (s := { s with params := { s.params with reverseAllow := v } }) hx hlt⟩
    · rw [hb] at hstore
      obtain ⟨g, hg⟩ := State.grantDecision_spec { s with params := { s.params with airBudget := v } }
      exact ⟨_, g, hserve hstore, hg⟩

/-! ### Outlet fields -/

theorem State.modOutlet_eq (s : State) (o : OutletNo) (f : Outlet → Outlet) : s.modOutlet o f = s.withOutlet o (f (s.outlet o)) := rfl

/-- The fields written with a value from a range, and their ranges (R86). -/
def fieldRanges : List (Nat × Nat × Nat) :=
  [(0, 0, 1048575), (1, 0, 255), (3, 10, 255), (4, 0, 255), (5, 10, 1000), (6, 20, 2000), (7, 16, 4095), (8, 0, 255), (10, 0, 1023), (12, 0, 15), (13, 0, 1)]

theorem fieldRange_of_mem : ∀ e ∈ fieldRanges, fieldRange e.1 = e.2 ∧ e.1 ≠ 2 ∧ e.1 ≠ 9 ∧ e.1 ≠ maskField ∧ e.1 ≤ 13 := by decide

/-- The fields of an outlet after each write of one (R86). -/
def OutletFields.writes (f : OutletFields) (v : Nat) : List (Nat × OutletFields) :=
  [(0, { f with position := v }), (1, { f with latency := v }), (3, { f with strokeTime := v }), (4, { f with recoverTime := v }),
    (5, { f with homeTimeout := v }), (6, { f with confirmWindow := v }), (7, { f with maxSpan := v }), (8, { f with lateTolerance := v }),
    (10, { f with warnLevel := v }), (12, { f with level := v }), (13, { f with holdOnBlock := decide (v = 1) })]

theorem OutletFields.store_of_mem (f : OutletFields) (v : Nat) : ∀ e ∈ f.writes v, f.store e.1 v = e.2 := by
  simp only [OutletFields.writes, List.forall_mem_cons, List.not_mem_nil, false_implies, implies_true, and_true]
  exact ⟨rfl, rfl, rfl, rfl, rfl, rfl, rfl, rfl, rfl, rfl, rfl⟩

theorem mechField_iff (n : Nat) : mechField n = true ↔ n ≤ 7 := by simp [mechField]

/-- A write whose outlet, field and mech check have passed (R185). -/
theorem State.setOutletField_short {s : State} {ob fb : Byte} {o : OutletNo} (ho : ob.toNat = o.val) (h1 : fb.toNat ≤ 13) (h2 : fb.toNat ≠ maskField)
    (h3 : (s.outlet o).enabled = false ∨ 7 < fb.toNat) (value : BitVec 24) : s.setOutletField ob fb (.short value) = s.writeField o fb.toNat value := by
  unfold State.setOutletField
  rw [outletOf_val ho]
  dsimp only
  rw [if_neg (by omega), if_neg]
  rw [mechField_iff]
  rintro ⟨h, he⟩
  obtain h3 | h3 := h3
  · rw [h3] at he
    cases he
  · omega

/-- The rack judged against a capacity written (R88). -/
theorem State.judgeCapacity_withOutlet (s : State) (o : OutletNo) (x : Outlet) :
    (s.withOutlet o x).judgeCapacity o = (s.withOutlet o { x with
        rack := if x.rack = .opened ∧ x.fields.capacity ≤ x.fill then .full else if x.rack = .full ∧ x.fill < x.fields.capacity then .opened else x.rack }).withLatches
      (if x.rack = .opened ∧ x.fields.capacity ≤ x.fill then 0x01 else 0) := by
  have hset : ∀ y, (s.setOutlet o x).setOutlet o y = s.setOutlet o y := s.setOutlet_setOutlet o x
  have hsame : ∀ k, x.rack = k → s.setOutlet o x = s.setOutlet o { x with rack := k } := by
    rintro k rfl
    rfl
  unfold State.judgeCapacity
  rw [State.withOutlet_eq, State.withOutlet_eq]
  dsimp only
  rw [State.outlet_setOutlet_self, hset, hset]
  cases hr : x.rack with
  | opened =>
    simp only [reduceCtorEq, true_and, false_and, if_false]
    split
    · rfl
    · rw [State.withLatches_zero]
      exact hsame _ hr
  | full =>
    simp only [reduceCtorEq, true_and, false_and, if_false, State.withLatches_zero]
    split
    · rfl
    · exact hsame _ hr
  | absent | closing | swapReady =>
    simp only [reduceCtorEq, false_and, if_false, State.withLatches_zero]
    exact hsame _ hr

theorem Outlet.fieldValue_trim (x : Outlet) (value : BitVec 24) : x.fieldValue 2 value = (BitVec.ofInt 24 (clampTrim value.toInt)).toNat := if_pos rfl

/-- A small signed number is its 24-bit form. -/
theorem ofInt_toNat_eq_iff {t : Int} (h : -128 ≤ t ∧ t ≤ 127) {w : BitVec 24} : (BitVec.ofInt 24 t).toNat = w.toNat ↔ t = w.toInt := by
  constructor
  · intro he
    rw [← BitVec.eq_of_toNat_eq he]
    exact (BitVec.toInt_ofInt_eq_self (by decide) (by omega) (by omega)).symm
  · rintro rfl
    rw [BitVec.ofInt_toInt]

/-- Settles O45: the refusals in their order, and the write by the kind of the field. -/
theorem setOutletFieldClampsAndStores : Obligations.SetOutletFieldClampsAndStores := by
  intro s ob fb value m answer hhold
  have hserve {arg : FieldArg} {t : State} {r : Response} (h : s.setOutletField ob fb arg = (t, r)) :
      exec (.setOutletField ob fb arg) s = .next (t.answered (.setOutletField ob fb arg) r) := exec_served (body := fun s => s.setOutletField ob fb arg) rfl hhold h
  have hout : 15 < ob.toNat → ∀ arg, s.setOutletField ob fb arg = (s, refuse .range) := fun h arg => by
    unfold State.setOutletField
    rw [outletOf_none h]
  refine ⟨fun h => hserve ?_, fun h => hserve ?_, fun o x f ho hx hf => ?_⟩
  · by_cases hob : 15 < ob.toNat
    · exact hout hob _
    · unfold State.setOutletField
      rw [outletOf_val (o := ⟨ob.toNat, by omega⟩) rfl]
      dsimp only
      exact if_pos (h.resolve_left hob)
  · by_cases hob : 15 < ob.toNat
    · exact hout hob _
    · unfold State.setOutletField
      rw [outletOf_val (o := ⟨ob.toNat, by omega⟩) rfl]
      dsimp only
      exact if_pos (h.resolve_left hob)
  · subst hf hx
    refine ⟨fun h => hserve ?_, fun h he => hserve ?_, fun h he v hv => hserve ?_, fun lo hi v hl he hv hans g hg => hserve ?_, fun h v hv hans => hserve ?_⟩
    · unfold State.setOutletField
      rw [outletOf_val ho]
      exact if_neg (not_not.mpr h)
    · unfold State.setOutletField
      rw [outletOf_val ho]
      dsimp only
      rw [if_neg (by rw [maskField]; omega), if_pos ⟨(mechField_iff _).mpr h, he⟩]
      rfl
    · rw [State.setOutletField_short ho (by omega) (by rw [maskField]; omega) (.inl he), h, hv, ← clampTrim_eq_ite]
      unfold State.writeField
      dsimp only
      rw [if_neg (by decide), okOrClamped_beq, State.modOutlet_eq, if_pos rfl]
      simp only [Outlet.fieldValue_trim, ofInt_toNat_eq_iff (clampTrim_mem value.toInt)]
    · obtain ⟨hfr, hn2, hn9, hnm, hle⟩ := fieldRange_of_mem _ (mem_of_lookup hl)
      rw [State.setOutletField_short ho hle hnm he]
      have hval : (s.outlet o).fieldValue fb.toNat value = v := by
        unfold Outlet.fieldValue
        rw [if_neg hn2, if_neg hn9, hfr, hv]
        exact clamp_eq_ite (by have h := fieldRange_le fb.toNat; rwa [hfr] at h) _
      unfold State.writeField
      dsimp only
      rw [hval, if_neg hn9, okOrClamped_beq, hans, State.modOutlet_eq, if_neg hn2, (s.outlet o).fields.store_of_mem v _ (mem_of_lookup hg)]
    · rw [State.setOutletField_short ho (by omega) (by rw [maskField]; omega) (.inr (by omega)), h]
      have hval : (s.outlet o).fieldValue 9 value = v := by
        unfold Outlet.fieldValue
        rw [if_neg (by decide), if_pos rfl, hv, Nat.max_comm, ← clamp_eq_ite (by decide)]
        rfl
      unfold State.writeField
      dsimp only
      rw [hval, if_pos rfl, okOrClamped_beq, hans, State.modOutlet_eq, State.judgeCapacity_withOutlet]
      rfl

/-! ### Outlet actions -/

/-- Settles O46: the refusals, and the two switches; a disable is a loss of acceptance. -/
theorem outletEnableAndDisable : Obligations.OutletEnableAndDisable := by
  intro s b hhold
  refine ⟨fun hb => ?_, fun o ho => ?_⟩
  · have hserve {c : Instr} {act : State → OutletNo → State × Response} (hdef : exec c s = serve c (fun s => s.onOutlet b (act s)) s) :
        exec c s = .next (s.answered c { status := .range, data := [] }) := exec_served hdef hhold (State.onOutlet_out hb (act s))
    simp only [List.forall_mem_cons, List.not_mem_nil, false_implies, implies_true, and_true]
    exact ⟨hserve (act := State.enableOutlet) rfl, hserve (act := State.disableOutlet) rfl, hserve (act := State.closeOutlet) rfl, hserve (act := State.reopenOutlet) rfl,
      hserve (act := State.clearFault) rfl, hserve (act := State.testStroke) rfl⟩
  · have henable {t : State} {r : Response} (h : s.enableOutlet o = (t, r)) : exec (.outletEnable b) s = .next (t.answered (.outletEnable b) r) :=
      exec_served (body := fun s => s.onOutlet b s.enableOutlet) rfl hhold ((State.onOutlet_of ho _).trans h)
    have hdisable {t : State} {r : Response} (h : s.disableOutlet o = (t, r)) : exec (.outletDisable b) s = .next (t.answered (.outletDisable b) r) :=
      exec_served (body := fun s => s.onOutlet b s.disableOutlet) rfl hhold ((State.onOutlet_of ho _).trans h)
    refine ⟨fun h => henable (if_pos h), fun h => henable (if_neg (by simp [h])), fun h => hdisable (if_neg (by simp [h])), fun h => ?_⟩
    let u : State := s.withOutlet o { s.outlet o with enabled := false }
    have hu : ∀ j, u.outlet j = if o = j then { s.outlet o with enabled := false } else s.outlet j := fun j => s.outlet_setOutlet o j _
    have hpaper := Paperwork.loseAcceptance u o
    refine ⟨u.loseAcceptance o, hdisable (if_pos h), ?_, ?_, hpaper.aa, fun j => ?_, fun hnone => State.loseAcceptance_of_none (s := u) hnone⟩
    · refine State.loseAcceptance_noneWaiting ?_
      rw [hu, if_pos rfl]
      exact Outlet.notOpen_of_disabled rfl
    · rw [(hpaper.outlet o).rest, hu, if_pos rfl]
    · have hsame := (hpaper.outlet j).same
      rw [hu] at hsame
      split at hsame
      · next e =>
        subst e
        obtain ⟨h1, h2, h3, -, h5, -⟩ := hsame
        exact ⟨h1, h2, h3, h5⟩
      · obtain ⟨h1, h2, h3, -, h5, -⟩ := hsame
        exact ⟨h1, h2, h3, h5⟩

/-- Settles O47: each request by the condition of the paddle. -/
theorem clearFaultAndTestStroke : Obligations.ClearFaultAndTestStroke := by
  intro s b o hhold ho
  have hclear {t : State} {r : Response} (h : s.clearFault o = (t, r)) : exec (.clearFault b) s = .next (t.answered (.clearFault b) r) :=
    exec_served (body := fun s => s.onOutlet b s.clearFault) rfl hhold ((State.onOutlet_of ho _).trans h)
  have htest {t : State} {r : Response} (h : s.testStroke o = (t, r)) : exec (.testStroke b) s = .next (t.answered (.testStroke b) r) :=
    exec_served (body := fun s => s.onOutlet b s.testStroke) rfl hhold ((State.onOutlet_of ho _).trans h)
  refine ⟨fun h => hclear (if_neg h), fun h hh => hclear ?_, fun h hh => ?_, fun h => htest (if_pos h), fun h hbusy => htest ?_, fun h hp hr hset => ?_⟩
  · exact (if_pos h).trans (if_neg hh)
  · obtain ⟨g, hg⟩ := State.grantDecision_spec (s.withOutlet o { s.outlet o with paddle := .idle, missRun := 0 })
    exact ⟨_, g, hclear ((if_pos h).trans (if_pos hh)), hg⟩
  · exact (if_neg (by simp [h])).trans (if_pos hbusy)
  · obtain ⟨g, hg⟩ := State.grantDecision_spec (s.withOutlet o { s.outlet o with request := some .test })
    exact ⟨_, g, htest ((if_neg (by simp [h])).trans (if_neg (by simp [hp, hr, hset]))), hg⟩

/-! ### Queries -/

/-- The parameters' values in the order of their numbers (spec/11). -/
def State.paramValues (s : State) : List Nat :=
  [s.params.msDiv, s.params.encFilter, if s.params.encInvert then 1 else 0, s.params.window, s.params.reverseAllow, s.params.stallTime,
    s.params.clearance, s.params.q, s.params.dEnd, s.params.armMargin, s.params.auditRate, s.rd.sampler.toNat, s.params.rackDebounce, s.params.eyeFilter,
    s.params.chuteBlockTime, s.params.chuteClearTime, s.params.airBudget, s.params.missLimit, s.params.syncTimeout, s.params.linkSilence,
    s.params.beaconPeriod, s.params.creditMargin, s.params.noticeAge]

theorem State.paramValue_eq (s : State) {n : Nat} (h : n < 23) : s.paramValues[n]? = some (s.paramValue n) := by
  interval_cases n <;> rfl

theorem flag_decide (p : Prop) [Decidable p] : flag (decide p) = if p then 1 else 0 := by
  unfold flag
  simp only [decide_eq_true_eq]

theorem State.statusBlock_eq (s : State) :
    s.statusBlock = be 1 (match s.service with | .standby => 0 | .serving => 1 | .draining => 2 | .failsafe => 3)
        ++ be 1 (match s.ilc.link with | .offline => 0 | .syncing => 1 | .active => 2) ++ be 1 (if 0 < s.bpu.v then 1 else 0) ++ be 3 s.bpu.position.toNat
        ++ be 2 s.bpu.v ++ be 3 s.bpu.hwm.toNat ++ be 2 (256 - s.tc.records.length) ++ be 1 (s.ilc.l - s.ilc.e).toNat ++ [s.tau.latches] := by
  rw [← flag_decide]
  rfl

/-- The latest fire point of an outlet block (R91). -/
theorem latestBlock_eq (l : Option Latest) :
    be 1 (flag l.isSome) ++ be 3 ((l.map (·.point.toNat)).getD 0) = match l with | some l => be 1 1 ++ be 3 l.point.toNat | none => [0, 0, 0, 0] := by
  cases l <;> rfl

/-- The waiting request of an outlet block (R91). -/
theorem Outlet.requestBlock_eq (x : Outlet) :
    be 3 x.lateLimit ++ be 1 x.requestKind = match x.request with | some (.deadline _ late _) => be 3 late.toNat ++ [1] | some .test => [0, 0, 0, 2] | none => [0, 0, 0, 0] := by
  unfold Outlet.lateLimit Outlet.requestKind
  obtain _ | ⟨_, late, _⟩ | _ := x.request
  · decide
  · exact congrArg (be 3 late.toNat ++ ·) (show be 1 1 = [1] by decide)
  · decide

theorem Outlet.block_eq (x : Outlet) :
    x.block = be 3 x.fields.position ++ be 1 x.fields.latency ++ [BitVec.ofInt 8 x.fields.trim] ++ be 1 x.fields.strokeTime ++ be 1 x.fields.recoverTime
          ++ be 2 x.fields.homeTimeout ++ be 2 x.fields.confirmWindow ++ be 2 x.fields.maxSpan ++ be 1 x.fields.lateTolerance ++ be 2 x.fields.capacity
          ++ be 2 x.fields.warnLevel ++ be 8 x.fields.acceptMask.toNat ++ be 1 x.fields.level
          ++ be 1 ((if x.enabled then 1 else 0) + (if x.fields.holdOnBlock then 2 else 0))
          ++ be 1 (match x.rack with | .absent => 0 | .opened => 1 | .full => 2 | .closing => 3 | .swapReady => 4)
          ++ be 1 (match x.rackKey with | some k => k.val | none => 0xFF) ++ be 2 x.fill ++ be 2 x.committed
          ++ be 2 (if x.rack = .absent ∨ x.rack = .full then 0 else x.fields.capacity - x.fill - x.committed)
          ++ (match x.latest with | some l => be 1 1 ++ be 3 l.point.toNat | none => [0, 0, 0, 0])
          ++ be 1 (if x.blocked then 1 else 0) ++ be 1 (match x.paddle with | .idle => 0 | .stroke => 1 | .recover => 2 | .faulted => 3)
          ++ be 1 (if x.request = none then 0 else 1) ++ be 1 (match x.strokeSet with | some set => set.members.length | none => 0) ++ be 1 x.missRun
          ++ be 1 (match x.lamp with | .off => 0 | .slow => 1 | .steady => 2 | .fast => 3)
          ++ (match x.request with | some (.deadline _ late _) => be 3 late.toNat ++ [1] | some .test => [0, 0, 0, 2] | none => [0, 0, 0, 0]) := by
  have hflags : flag x.enabled + 2 * flag x.fields.holdOnBlock = (if x.enabled then 1 else 0) + (if x.fields.holdOnBlock then 2 else 0) := by
    cases x.enabled <;> cases x.fields.holdOnBlock <;> rfl
  have hkey : (x.rackKey.map (·.val)).getD 0xFF = match x.rackKey with | some k => k.val | none => 0xFF := by cases x.rackKey <;> rfl
  have hset : (x.strokeSet.map (·.members.length)).getD 0 = match x.strokeSet with | some set => set.members.length | none => 0 := by cases x.strokeSet <;> rfl
  have hreq : flag x.request.isSome = if x.request = none then 0 else 1 := by cases x.request <;> rfl
  rw [← latestBlock_eq x.latest, ← x.requestBlock_eq, ← hflags, ← hkey, ← hset, ← hreq]
  unfold Outlet.block
  dsimp only
  simp only [List.append_assoc]
  rfl

/-- Settles O43: the blocks of the three queries. -/
theorem queriesAnswerFromTheState : Obligations.QueriesAnswerFromTheState := by
  rintro s b values status block hhold rfl rfl
  have hparam {r : Response} (h : s.getParam b = (s, r)) : exec (.getParam b) s = .next (s.answered (.getParam b) r) :=
    exec_served (body := fun s => s.getParam b) rfl hhold h
  have houtlet {r : Response} (h : s.onOutlet b (fun o => (s, okWith (s.outlet o).block)) = (s, r)) : exec (.getOutlet b) s = .next (s.answered (.getOutlet b) r) :=
    exec_served (body := fun s => s.onOutlet b (fun o => (s, okWith (s.outlet o).block))) rfl hhold h
  refine ⟨?status, fun v hv => hparam ?value, fun h => hparam ?noParam, fun h => houtlet (State.onOutlet_out h _), fun o x ho hx hblock => houtlet ?outlet⟩
  case status => exact exec_served (body := fun s => (s, okWith s.statusBlock)) rfl hhold (by rw [s.statusBlock_eq]; rfl)
  case value =>
    have hlt : b.toNat < 23 := (List.getElem?_eq_some_iff.mp hv).1
    have hval : v = s.paramValue b.toNat := Option.some.inj (hv.symm.trans (s.paramValue_eq hlt))
    unfold State.getParam
    rw [paramRange_eq, List.getElem?_eq_getElem (show b.toNat < paramRanges.length from hlt), hval]
    rfl
  case noParam =>
    unfold State.getParam
    rw [paramRange_eq, List.getElem?_eq_none h]
    rfl
  case outlet =>
    have hx' : block = x.block := hblock.trans x.block_eq.symm
    rw [State.onOutlet_of ho, hx', hx]
    rfl

end Sys2Proof.Machine
end


section
/-! PROOFS. The plan, track and reporting requests of the supervisor port (spec/03, spec/02, spec/09). -/

namespace Sys2Proof.Machine

/-! ### The routing plan -/

theorem classOf_val {b : Byte} {c : ClassNo} (h : b.toNat = c.val) : classOf b = some c := by
  unfold classOf
  rw [dif_pos (by rw [h]; exact c.isLt)]
  exact congrArg some (Fin.ext h)

theorem classOf_none {b : Byte} (h : 63 < b.toNat) : classOf b = none := dif_neg (by omega)

theorem keyOf_val {b : Byte} {k : KeyNo} (h : b.toNat = k.val) : keyOf b = some k := by
  unfold keyOf
  rw [dif_pos (by rw [h]; exact k.isLt)]
  exact congrArg some (Fin.ext h)

theorem keyOf_none {b : Byte} (h : 15 < b.toNat) : keyOf b = none := dif_neg (by omega)

theorem headOf_code {h : BitVec 16} {x : Option RouteIx} (e : h.toNat = headCode x) : headOf h = some x := by
  unfold headOf
  cases x with
  | none =>
    have e' : h.toNat = 256 := e
    rw [if_neg (by omega), if_pos e']
  | some i =>
    rw [if_pos (by rw [e]; exact i.isLt), e, headCode]
    exact congrArg (fun y => some (some y)) (Fin.ext (Nat.mod_eq_of_lt i.isLt))

theorem headOf_none {h : BitVec 16} (e : 256 < h.toNat) : headOf h = none := by
  unfold headOf
  rw [if_neg (by omega), if_neg (by omega)]

theorem headCode_eq (x : Option RouteIx) : headCode x = match x with | some i => i.val | none => 256 := by cases x <;> rfl

theorem be_two_small {n : Nat} (h : n < 256) : be 2 n = [0, BitVec.ofNat 8 n] := by
  simp [be, Nat.div_eq_of_lt h]

/-- The bytes of a route entry after its index (R58). -/
theorem RouteEntry.block_eq (e : RouteEntry) : e.block = match e with
    | .stop => [0, 0, 0, 0]
    | .outlet o chain => [1, 0, BitVec.ofNat 8 o.val, if chain then 1 else 0]
    | .jump t chain => [2, 0, BitVec.ofNat 8 t.val, if chain then 1 else 0] := by
  cases e with
  | stop => decide
  | outlet o chain => simp [RouteEntry.block, be_two_small (show o.val < 256 by omega)]
  | jump t chain => simp [RouteEntry.block, be_two_small t.isLt]

/-- The bytes of a class entry after its class (R58). -/
theorem ClassEntry.block_eq (e : ClassEntry) : e.block = be 1 e.weight ++ be 2 (match e.head with | some x => x.val | none => 256)
    ++ be 1 (if e.auditEnable then 1 else 0) ++ be 2 (match e.auditHead with | some x => x.val | none => 256) := by
  unfold ClassEntry.block
  cases e.head <;> cases e.auditHead <;> rfl

/-- The entry that PUT ROUTE stores (R57). -/
theorem routeEntryOf_some {kind ch : Byte} {fld : BitVec 16} {e : RouteEntry}
    (h : (kind = 0 ∧ fld.toNat ≤ 256 ∧ e = .stop) ∨ (kind = 1 ∧ ∃ o : OutletNo, fld.toNat = o.val ∧ e = .outlet o (ch.getLsbD 0))
      ∨ (kind = 2 ∧ ∃ t : RouteIx, fld.toNat = t.val ∧ e = .jump t (ch.getLsbD 0))) : routeEntryOf kind fld ch = some e := by
  unfold routeEntryOf
  obtain ⟨rfl, hf, rfl⟩ | ⟨rfl, o, hf, rfl⟩ | ⟨rfl, t, hf, rfl⟩ := h
  · rw [if_neg (by omega)]
    rfl
  · rw [if_neg (by omega)]
    exact (dif_pos (show fld.toNat < 16 by omega)).trans (congrArg (fun i => some (RouteEntry.outlet i (ch.getLsbD 0))) (Fin.ext hf))
  · rw [if_neg (by omega)]
    exact (dif_pos (show fld.toNat < 256 by omega)).trans (congrArg (fun i => some (RouteEntry.jump i (ch.getLsbD 0))) (Fin.ext hf))

theorem routeEntryOf_none {kind ch : Byte} {fld : BitVec 16}
    (h : 2 < kind.toNat ∨ 256 < fld.toNat ∨ kind = 1 ∧ 15 < fld.toNat ∨ kind = 2 ∧ 255 < fld.toNat) : routeEntryOf kind fld ch = none := by
  unfold routeEntryOf
  by_cases hf : 256 < fld.toNat
  · rw [if_pos hf]
  rw [if_neg hf]
  obtain h | h | ⟨rfl, h⟩ | ⟨rfl, h⟩ := h
  · split <;> simp_all
  · exact absurd h hf
  · exact dif_neg (by omega)
  · exact dif_neg (by omega)

/-- Settles O48: each request by its arguments. -/
theorem planWritesReplaceStagingEntries : Obligations.PlanWritesReplaceStagingEntries := by
  rintro s cb w a i kind ch bank h ah fld staging store hhold rfl hstore
  have hclass {t : State} {r : Response} (e : s.putClass cb w h a ah = (t, r)) : exec (.putClass cb w h a ah) s = .next (t.answered (.putClass cb w h a ah) r) :=
    exec_served (body := fun s => s.putClass cb w h a ah) rfl hhold e
  have hroute {t : State} {r : Response} (e : s.putRoute i kind fld ch = (t, r)) : exec (.putRoute i kind fld ch) s = .next (t.answered (.putRoute i kind fld ch) r) :=
    exec_served (body := fun s => s.putRoute i kind fld ch) rfl hhold e
  have hget {r : Response} (e : s.getPlanEntry bank kind i = (s, r)) : exec (.getPlanEntry bank kind i) s = .next (s.answered (.getPlanEntry bank kind i) r) :=
    exec_served (body := fun s => s.getPlanEntry bank kind i) rfl hhold e
  refine ⟨fun e => hclass ?_, fun c head auditHead v hc hh hah hv => hclass ?_, fun e => hroute ?_, fun x e => hroute ?_, fun e => hget ?_, fun b data hb hdata => hget ?_⟩
  · unfold State.putClass
    obtain e | e | e := e
    · rw [classOf_none e]
      rfl
    · rw [headOf_none e]
      cases classOf cb with
      | none => rfl
      | some c => rfl
    · rw [headOf_none e]
      cases classOf cb with
      | none => rfl
      | some c => cases headOf h <;> rfl
  · have hh' : h.toNat = headCode head := hh.trans (headCode_eq head).symm
    have hah' : ah.toNat = headCode auditHead := hah.trans (headCode_eq auditHead).symm
    unfold State.putClass
    rw [classOf_val hc, headOf_code hh', headOf_code hah']
    dsimp only
    rw [clamp_eq_ite (by decide), ← hv, okOrClamped_beq, hstore, hh', hah']
    rfl
  · unfold State.putRoute
    rw [routeEntryOf_none e]
    rfl
  · unfold State.putRoute
    rw [routeEntryOf_some e, hstore]
    have hix : routeIxOf i = ⟨i.toNat, i.isLt⟩ := Fin.ext (Nat.mod_eq_of_lt i.isLt)
    rw [hix]
    rfl
  · unfold State.getPlanEntry
    by_cases hbig : 1 < bank.toNat ∨ 1 < kind.toNat
    · rw [if_pos hbig]
      rfl
    · obtain ⟨rfl, hi⟩ : kind = 0 ∧ 63 < i.toNat := by tauto
      rw [if_neg hbig]
      dsimp only
      rw [if_pos rfl, classOf_none hi]
      rfl
  · have hbank : (if bank = 0 then s.rd.activeBank else s.rd.stagingBank) = b := by
      obtain ⟨rfl, rfl⟩ | ⟨rfl, rfl⟩ := hb <;> rfl
    have hb1 : ¬1 < bank.toNat := by obtain ⟨rfl, -⟩ | ⟨rfl, -⟩ := hb <;> decide
    unfold State.getPlanEntry
    obtain ⟨rfl, c, e, hi, rfl, rfl⟩ | ⟨rfl, e, rfl, rfl⟩ := hdata
    · rw [if_neg (by simp [hb1])]
      dsimp only
      rw [hbank, if_pos rfl, classOf_val hi]
      dsimp only
      rw [ClassEntry.block_eq]
      rfl
    · rw [if_neg (by simp [hb1])]
      dsimp only
      rw [hbank, if_neg (by decide), RouteEntry.block_eq]
      rfl

/-! ### Tallies and attention -/

theorem KeyTally.block_eq (x : KeyTally) : x.block = [x.delivered, x.ended, x.withdrawn, x.lost, x.racks].flatMap (be 3) := by simp [KeyTally.block]

theorem OutletTally.block_eq (x : OutletTally) : x.block = [x.items, x.units, x.strokes, x.misses, x.abandoned, x.strays, x.racks].flatMap (be 3) := by
  simp [OutletTally.block]

theorem DeviceTally.block_eq (x : DeviceTally) : x.block = [x.badFrames, x.outOfOrder, x.overruns, x.refused, x.stale, x.gapTotal, x.unmatched, x.planChecks, x.trackLosses,
    x.encoderFaults].flatMap (be 3) := by simp [DeviceTally.block]

/-- Settles O55: each request by its arguments. -/
theorem talliesAndAttentionAreReadAndCleared : Obligations.TalliesAndAttentionAreReadAndCleared := by
  intro s g i clr e m hhold
  have hserve {t : State} {r : Response} (h : s.readTallies g i clr = (t, r)) : exec (.readTallies g i clr) s = .next (t.answered (.readTallies g i clr) r) :=
    exec_served (body := fun s => s.readTallies g i clr) rfl hhold h
  refine ⟨fun h => hserve ?_, fun k hg hi x hx => hserve ?_, fun o hg hi x hx => hserve ?_, fun hg x hx => hserve ?_,
    exec_served (body := fun s => s.setAttention e m) rfl hhold rfl, exec_served (body := fun s => s.ackAttention e) rfl hhold rfl⟩
  · unfold State.readTallies
    dsimp only
    split
    · next h0 => rw [keyOf_none (by omega)]; rfl
    · next h1 => rw [outletOf_none (by omega)]; rfl
    · next h2 => omega
    · rfl
  · subst hg hx
    show (match keyOf i with | none => _ | some k => _) = _
    rw [keyOf_val hi]
    dsimp only
    rw [KeyTally.block_eq]
    cases clr.getLsbD 0 <;> rfl
  · subst hg hx
    show (match outletOf i with | none => _ | some k => _) = _
    rw [outletOf_val hi]
    dsimp only
    rw [OutletTally.block_eq]
    cases clr.getLsbD 0 <;> rfl
  · subst hg hx
    show (_, okWith s.tau.device.block) = _
    rw [DeviceTally.block_eq]
    cases clr.getLsbD 0 <;> rfl

/-! ### Tags named by a request -/

/-- A tag argument names a record by its slot and generation (R24). -/
theorem tagOf_eq {tag : BitVec 16} (h : tag.toNat ≤ 4095) {t : Tag} : tagOf tag = some t ↔ t.slot.val * 16 + t.gen.toNat = tag.toNat := by
  have hg := t.gen.isLt
  have hs := t.slot.isLt
  unfold tagOf
  rw [if_pos (by omega), Option.some.injEq]
  constructor
  · rintro rfl
    simp only [Fin.ofNat, BitVec.toNat_ofNat]
    omega
  · intro e
    obtain ⟨slot, gen⟩ := t
    dsimp only at e hg hs
    simp only [Tag.mk.injEq]
    refine ⟨Fin.ext ?_, BitVec.eq_of_toNat_eq ?_⟩
    · simp only [Fin.ofNat]
      omega
    · simp only [BitVec.toNat_ofNat]
      omega

theorem tagOf_none {tag : BitVec 16} (h : 4095 < tag.toNat) : tagOf tag = none := if_neg (by omega)

theorem tagOf_some {tag : BitVec 16} (h : tag.toNat ≤ 4095) : ∃ t, tagOf tag = some t := ⟨_, if_pos (by omega)⟩

/-- A live record that is the only one of its tag is found by it. -/
theorem State.find_one {s : State} {r : Record} (hr : r ∈ s.tc.records) (hone : ∀ q ∈ s.tc.records, q.tag = r.tag → q = r) : s.find r.tag = some r := by
  unfold State.find
  cases h : s.tc.records.find? (fun q => q.tag == r.tag) with
  | none => exact absurd (List.find?_eq_none.mp h r hr) (by simp)
  | some q => rw [hone q (List.mem_of_find?_eq_some h) (eq_of_beq (List.find?_some (p := fun q : Record => q.tag == r.tag) h))]

theorem State.find_tag {s : State} (hs : s.tableLaw) {r : Record} (hr : r ∈ s.tc.records) : s.find r.tag = some r :=
  State.find_one hr fun _ hq e => State.eq_of_tag hs hr hq e

theorem State.find_none_iff {s : State} {t : Tag} : s.find t = none ↔ ∀ r ∈ s.tc.records, r.tag ≠ t := by
  unfold State.find
  rw [List.find?_eq_none]
  simp only [beq_iff_eq, ne_eq]

theorem State.onTag_none {s : State} {tag : BitVec 16} (h : 4095 < tag.toNat) (act : Record → State × Response) : s.onTag tag act = (s, refuse .range) := by
  unfold State.onTag
  rw [tagOf_none h]

theorem State.onTag_not_found {s : State} {tag : BitVec 16} (h : tag.toNat ≤ 4095) (hn : ∀ r ∈ s.tc.records, r.slot.val * 16 + r.gen.toNat ≠ tag.toNat)
    (act : Record → State × Response) : s.onTag tag act = (s, refuse .notFound) := by
  obtain ⟨t, ht⟩ := tagOf_some h
  have hf : s.find t = none := State.find_none_iff.mpr fun r hr e => hn r hr ((tagOf_eq h (t := r.tag)).mp (ht.trans (congrArg some e.symm)))
  unfold State.onTag
  rw [ht]
  dsimp only
  rw [hf]

theorem State.onTag_found {s : State} {tag : BitVec 16} {r : Record} (hs : s.tableLaw) (hr : r ∈ s.tc.records) (h : r.slot.val * 16 + r.gen.toNat = tag.toNat)
    (act : Record → State × Response) : s.onTag tag act = act r := by
  have hslot := r.slot.isLt
  have hgen := r.gen.isLt
  have ht : tagOf tag = some r.tag := (tagOf_eq (by omega)).mpr h
  unfold State.onTag
  rw [ht]
  dsimp only
  rw [State.find_tag hs hr]

theorem recordAfter_append {before after : List Record} {r : Record} (h : ((before ++ r :: after).map Record.tag).Nodup) :
    recordAfter r.tag (before ++ r :: after) = after.head? := by
  induction before with
  | nil => exact if_pos rfl
  | cons q rest ih =>
    rw [List.cons_append, List.map_cons, List.nodup_cons] at h
    obtain ⟨hq, hrest⟩ := h
    have hne : q.tag ≠ r.tag := fun e => hq (e ▸ List.mem_map_of_mem (List.mem_append_right rest List.mem_cons_self))
    rw [List.cons_append, recordAfter, if_neg hne]
    exact ih hrest

theorem State.tags_nodup {s : State} (h : s.tableLaw) : (s.tc.records.map Record.tag).Nodup := by
  have hslots : ((s.tc.records.map Record.tag).map Tag.slot).Nodup := by
    rw [List.map_map]
    exact h
  exact hslots.of_map

/-! ### Lookups -/

/-- The flags of a snapshot as a byte (R206). -/
theorem flags_code (a b c d : Bool) :
    flag a + 2 * flag b + 4 * flag c + 8 * flag d = (if a then 1 else 0) + (if b then 2 else 0) + (if c then 4 else 0) + (if d then 8 else 0) := by
  cases a <;> cases b <;> cases c <;> cases d <;> rfl

theorem clusterCode_eq (c : Option ClusterLink) :
    clusterCode c = match c with | some (.member t) => t.slot.val * 16 + t.gen.toNat | some (.leader n) => 0x8000 + n | none => 0xFFFF := by
  obtain _ | ⟨_⟩ | ⟨_⟩ := c <;> rfl

/-- The route of a snapshot (R206). -/
theorem routeBlock_eq (x : Option Route) :
    be 1 ((x.map (·.outlet.val)).getD 0xFF) ++ be 1 ((x.map (·.entry.val)).getD 0) ++ be 3 ((x.map (·.firePoint.toNat)).getD 0) ++ be 1 ((x.map (·.units)).getD 0)
      = match x with
        | some x => be 1 x.outlet.val ++ be 1 x.entry.val ++ be 3 x.firePoint.toNat ++ be 1 x.units
        | none => [0xFF, 0, 0, 0, 0, 0] := by
  cases x with
  | none => decide
  | some x => rfl

theorem refusalCode_eq (x : Option RefusalReason) :
    (x.map (·.code)).getD 0 = match x with | none => 0 | some .notOpen => 1 | some .beyondEnd => 2 | some .cls => 3 | some .key => 4 | some .span => 5 | some .capacity => 6 | some .late => 7 | some .spacing => 8 := by
  cases x with
  | none => rfl
  | some why => cases why <;> rfl

theorem carryCode_eq (x : Option CarryReason) :
    (x.map (·.code)).getD 0 = match x with | none => 0 | some .chainEnd => 1 | some .noChain => 2 | some .planCheck => 3 | some .clusterLimit => 4 | some .overlapLate => 5 | some .fireLate => 6 | some .paddleBusy => 7 | some .strokeMiss => 8 := by
  cases x with
  | none => rfl
  | some why => cases why <;> rfl

/-- The waypoint of a snapshot (R206). -/
theorem Record.waypointBlock_eq (r : Record) :
    be 1 r.waypointKind ++ be 3 ((r.waypoint.map (·.toNat)).getD 0) = match r.waypoint with
      | some w => be 1 (match r.state with | .pending => 1 | .routed => 2 | .due => 3 | .fired => 0 | .carried => 4) ++ be 3 w.toNat
      | none => [0, 0, 0, 0] := by
  unfold Record.waypointKind
  cases r.waypoint with
  | none => exact (show be 1 0 ++ be 3 0 = [0, 0, 0, 0] by decide)
  | some w => cases r.state <;> rfl

theorem State.snapshot_eq (s : State) (r : Record) :
    s.snapshot r = be 2 (r.slot.val * 16 + r.gen.toNat) ++ [r.number] ++ be 3 r.stamp.toNat ++ be 2 r.length ++ be 1 r.cls.val ++ be 1 r.key.val
      ++ be 1 (match r.state with | .pending => 1 | .routed => 2 | .due => 3 | .fired => 4 | .carried => 5)
      ++ be 1 ((if r.flags.audit then 1 else 0) + (if r.flags.amended then 2 else 0) + (if r.flags.stampClamped then 4 else 0) + (if r.flags.rerouted then 8 else 0))
      ++ be 2 (match r.cluster with | some (.member t) => t.slot.val * 16 + t.gen.toNat | some (.leader n) => 0x8000 + n | none => 0xFFFF)
      ++ (match r.route with
        | some x => be 1 x.outlet.val ++ be 1 x.entry.val ++ be 3 x.firePoint.toNat ++ be 1 x.units
        | none => [0xFF, 0, 0, 0, 0, 0])
      ++ be 1 (match r.lastRefusal with | none => 0 | some .notOpen => 1 | some .beyondEnd => 2 | some .cls => 3 | some .key => 4 | some .span => 5 | some .capacity => 6 | some .late => 7 | some .spacing => 8)
      ++ be 1 (match r.carry with | none => 0 | some .chainEnd => 1 | some .noChain => 2 | some .planCheck => 3 | some .clusterLimit => 4 | some .overlapLate => 5 | some .fireLate => 6 | some .paddleBusy => 7 | some .strokeMiss => 8)
      ++ (match r.waypoint with
        | some w => be 1 (match r.state with | .pending => 1 | .routed => 2 | .due => 3 | .fired => 0 | .carried => 4) ++ be 3 w.toNat
        | none => [0, 0, 0, 0])
      ++ be 2 (match r.state, (s.tc.records.find? (fun q => q.tag == r.leaderTag)).bind (·.waypoint) with
        | .pending, some w => min 65535 (w - s.bpu.position).toNat
        | _, _ => 0xFFFF) := by
  rw [← flags_code, ← clusterCode_eq, ← routeBlock_eq, ← refusalCode_eq, ← carryCode_eq, ← r.waypointBlock_eq]
  unfold State.snapshot
  simp only [List.append_assoc]
  rfl

/-- Settles O52: the snapshots are the model's, and the lookups are by tag, by place in the list and by the point covered. -/
theorem lookupsReportRecordsInBeltOrder : Obligations.LookupsReportRecordsInBeltOrder := by
  intro s tag d snap hhold hsnap
  have hs : snap = s.snapshot := funext fun r => (hsnap r).trans (s.snapshot_eq r).symm
  subst hs
  have hfind {r : Response} (h : s.onTag tag (fun r => (s, okWith (s.snapshot r))) = (s, r)) : exec (.findTrack tag) s = .next (s.answered (.findTrack tag) r) :=
    exec_served (body := fun s => s.onTag tag (fun r => (s, okWith (s.snapshot r)))) rfl hhold h
  have hnext {t : Option (BitVec 16)} {r : Response} (h : s.nextTrack t = (s, r)) : exec (.nextTrack t) s = .next (s.answered (.nextTrack t) r) :=
    exec_served (body := fun s => s.nextTrack t) rfl hhold h
  have hat {r : Response} (h : s.findAt d = (s, r)) : exec (.findAt d) s = .next (s.answered (.findAt d) r) := exec_served (body := fun s => s.findAt d) rfl hhold h
  refine ⟨fun h => ?_, fun h hn => ?_, fun r before after hrec htag hlaw => ?_, hnext ?_, fun h => hat (if_pos h), fun h hits hh => hat ?_⟩
  · simp only [List.forall_mem_cons, List.not_mem_nil, false_implies, implies_true, and_true]
    exact ⟨hfind (State.onTag_none h _), hnext (State.onTag_none h _)⟩
  · simp only [List.forall_mem_cons, List.not_mem_nil, false_implies, implies_true, and_true]
    exact ⟨hfind (State.onTag_not_found h hn _), hnext (State.onTag_not_found h hn _)⟩
  · have hr : r ∈ s.tc.records := by rw [hrec]; exact List.mem_append_right _ List.mem_cons_self
    refine ⟨hfind (State.onTag_found hlaw hr htag _), hnext ((State.onTag_found hlaw hr htag _).trans ?_)⟩
    have hafter : recordAfter r.tag s.tc.records = after.head? := by
      have hnd := State.tags_nodup hlaw
      rw [hrec] at hnd ⊢
      exact recordAfter_append hnd
    rw [hafter]
    cases after <;> rfl
  · show (s, s.snapshotAnswer s.tc.records.head?) = _
    cases s.tc.records <;> rfl
  · unfold State.findAt
    rw [if_neg (by omega), hh]
    rfl

end Sys2Proof.Machine
end


section
/-! PROOFS. The intake link: bad and valid frames, the checks on a notice, beacons, and the receive line (spec/06). -/

namespace Sys2Proof.Machine

/-! ### Bad frames -/

theorem State.setRx_idle {s : State} (h : s.ilc.rx = .idle) : s.setRx .idle = s := by
  unfold State.setRx
  rw [← h]

/-- A bad frame with its run counted (R138, R145). -/
theorem State.badFrame_of_kept {s : State} (h : s.ilc.link ≠ .active ∨ s.ilc.badRun < 3) :
    s.badFrame = { s with
      ilc := { s.ilc with assembler := .hunt, badRun := min 4 (s.ilc.badRun + 1) }
      tau := { s.tau with device := { s.tau.device with badFrames := min 16777215 (s.tau.device.badFrames + 1) } } } := by
  unfold State.badFrame
  dsimp only
  rw [if_neg]
  · rfl
  · rintro ⟨hrun, hlink⟩
    obtain h | h := h
    · exact h hlink
    · have hrun' : min 4 (s.ilc.badRun + 1) = 4 := hrun
      omega

/-- The fourth bad frame in a row loses an ACTIVE link (R145, R146). -/
theorem State.badFrame_of_fourth {s : State} (hlink : s.ilc.link = .active) (hrun : 3 ≤ s.ilc.badRun) :
    s.badFrame = { s with
      ilc := { s.ilc with
        link := .offline
        assembler := .hunt
        badRun := 4
        l := s.ilc.e
        beaconTimer := 0
        tx := s.ilc.tx.dropWaiting }
      tau := { s.tau with
        device := { s.tau.device with badFrames := min 16777215 (s.tau.device.badFrames + 1) }
        latches := s.tau.latches ||| 0x08 } } := by
  have hfour : min 4 (s.ilc.badRun + 1) = 4 := by omega
  unfold State.badFrame
  dsimp only
  rw [if_pos ⟨hfour, hlink⟩]
  have h4 : min 4 ((s.countDevice .badFrames 1).ilc.badRun + 1) = 4 := hfour
  rw [h4]
  rfl

/-- A frame found bad at its length or its CRC, and a byte error within one, are bad frames. -/
theorem exec_badFrame {cause : BadCause} {s : State} (h : cause ≠ .byteError ∨ s.ilc.assembler ≠ .hunt) : exec (.badFrame cause) s = .next (s.setRx .idle).badFrame := by
  cases cause with
  | atLength => rfl
  | atCrc => rfl
  | byteError => exact congrArg _ (if_neg (h.resolve_left fun hn => hn rfl))

/-- Settles O28: a byte error in HUNT, a bad frame counted, and the fourth in a row. -/
theorem badFrameIsCountedAndTheFourthLosesTheLink : Obligations.BadFrameIsCountedAndTheFourthLosesTheLink := by
  rintro cause s n d rfl rfl
  refine ⟨?_, fun h => ⟨fun hkept => ?_, fun hlink hrun => ?_⟩⟩
  · rintro rfl hhunt
    exact congrArg _ (if_pos hhunt)
  · rw [exec_badFrame h, State.badFrame_of_kept (s := s.setRx .idle) hkept]
    rfl
  · rw [exec_badFrame h, State.badFrame_of_fourth (s := s.setRx .idle) hlink hrun, Transmitter.dropWaiting_eq]
    rfl

/-! ### Valid frames -/

theorem exec_join (level : Byte) (s : State) : exec (.join level) s = .next ((s.setRx .idle).takeJoin level) := rfl

theorem exec_keepalive (s : State) : exec .keepalive s = .next (s.setRx .idle).takeKeepalive := rfl

theorem exec_notice (n : Byte) (stamp : Pos) (len : BitVec 16) (c : ClassNo) (k : KeyNo) (s : State) :
    exec (.notice n stamp len c k) s = (s.setRx .idle).takeNotice n stamp len c k := rfl

theorem exec_revise (n : Byte) (sc sk : Bool) (c : ClassNo) (k : KeyNo) (s : State) :
    exec (.revise n sc sk c k) s = .next ((s.setRx .idle).takeRevise n sc sk c k) := rfl

theorem Transmitter.hand_eq (t : Transmitter) (bytes : List Byte) :
    t.hand bytes = match t with | .idle => .sending bytes none | .sending now _ => .sending now (some bytes) := by cases t <;> rfl

/-- The state in which a valid frame has been received whole (R139). -/
def State.heard (s : State) : State := { s with ilc := { s.ilc with rx := .idle, assembler := .hunt, silence := 0, badRun := 0 } }

theorem State.heard_eq (s : State) : (s.setRx .idle).validFrame = s.heard := rfl

/-- A synchronisation begins with a beacon of credit limit 0 (R140). -/
theorem State.enterSyncing_eq (s : State) : s.enterSyncing = { s with
    ilc := { s.ilc with link := .syncing, e := 0, l := 0, syncTimer := 0, syncFrames := 0, beaconTimer := 0, tx := s.ilc.tx.hand (beaconFrame s.bpu.position 0) } } := by
  unfold State.enterSyncing State.composeBeacon
  simp only [reduceCtorEq, and_false, false_and, if_false, decide_false, State.raiseIf]

/-- A sync frame, with the first counted and the second making the link ACTIVE (R141). -/
theorem State.syncFrame_eq {s : State} (h : s.ilc.link = .syncing) :
    s.syncFrame = { s with ilc := { s.ilc with syncFrames := s.ilc.syncFrames + 1, link := if 1 ≤ s.ilc.syncFrames then .active else .syncing } } := by
  unfold State.syncFrame
  dsimp only
  rw [h]
  simp only [show (2 ≤ s.ilc.syncFrames + 1) = (1 ≤ s.ilc.syncFrames) from propext (by omega)]

/-- Settles O29: a JOIN, and then each frame by the state of the link. -/
theorem validFramesFollowTheLinkState : Obligations.ValidFramesFollowTheLinkState := by
  refine ⟨fun level s => ⟨fun h => ?_, fun h => ?_⟩, ?_⟩
  · rw [exec_join, State.takeJoin, if_pos h, State.enterSyncing_eq, Transmitter.hand_eq]
    rfl
  · rw [exec_join, State.takeJoin, if_neg h]
    rfl
  · rintro s n stamp len c k sc sk i rfl
    refine ⟨fun h => ?_, fun h => ?_, fun h j hj => ?_⟩
    · rw [exec_keepalive, State.takeKeepalive, State.heard_eq]
      exact congrArg _ (if_neg h)
    · simp only [List.forall_mem_cons, List.not_mem_nil, false_implies, implies_true, and_true]
      constructor
      · rw [exec_notice, State.takeNotice, State.heard_eq]
        rw [show s.heard.ilc.link = .offline from h]
        rfl
      · rw [exec_revise, State.takeRevise, State.heard_eq]
        rw [show s.heard.ilc.link = .offline from h]
        rfl
    · have hsync : s.heard.syncFrame = { s with ilc := j } := by
        rw [State.syncFrame_eq (s := s.heard) h, hj]
        rfl
      have hrefused : (s.heard.countDevice .refused 1).syncFrame
          = { s with ilc := j, tau := { s.tau with device := { s.tau.device with refused := min 16777215 (s.tau.device.refused + 1) } } } := by
        rw [State.syncFrame_eq (s := s.heard.countDevice .refused 1) h, hj]
        rfl
      simp only [List.forall_mem_cons, List.not_mem_nil, false_implies, implies_true, and_true]
      refine ⟨?_, ?_, ?_⟩
      · rw [exec_keepalive, State.takeKeepalive, State.heard_eq]
        exact congrArg _ ((if_pos h).trans hsync)
      · rw [exec_notice, State.takeNotice, State.heard_eq]
        rw [show s.heard.ilc.link = .syncing from h]
        exact congrArg _ hrefused
      · rw [exec_revise, State.takeRevise, State.heard_eq]
        rw [show s.heard.ilc.link = .syncing from h]
        exact congrArg _ hrefused

/-! ### The checks on a notice -/

theorem exec_notice_active {s : State} (h : s.ilc.link = .active) (n : Byte) (stamp : Pos) (len : BitVec 16) (c : ClassNo) (k : KeyNo) :
    exec (.notice n stamp len c k) s = s.heard.judgeNotice n stamp len c k := by
  rw [exec_notice, State.takeNotice, State.heard_eq]
  rw [show s.heard.ilc.link = .active from h]

theorem exec_revise_active {s : State} (h : s.ilc.link = .active) (n : Byte) (sc sk : Bool) (c : ClassNo) (k : KeyNo) :
    exec (.revise n sc sk c k) s = .next (s.heard.judgeRevise n sc sk c k) := by
  rw [exec_revise, State.takeRevise, State.heard_eq]
  rw [show s.heard.ilc.link = .active from h]

theorem State.numbered_eq (s : State) (n : Byte) : s.numbered n =
    if (n - s.ilc.e).toNat = 0 then { s.heard with ilc := { s.heard.ilc with e := n + 1 } }
    else { (s.heard.countDevice .gapTotal (n - s.ilc.e).toNat).raise .intake with ilc := { s.heard.ilc with e := n + 1 } } := by
  unfold State.numbered
  dsimp only
  split <;> rfl

/-- A notice in order and within the credit: what checks 4 to 6 see (R153 to R156). -/
theorem State.judgeNotice_numbered {s : State} {n : Byte} (h1 : (n - s.ilc.e).toNat < 128) (h2 : 1 ≤ (s.ilc.l - n).toNat) (h3 : (s.ilc.l - n).toNat ≤ 128) (stamp : Pos)
    (len : BitVec 16) (c : ClassNo) (k : KeyNo) :
    s.heard.judgeNotice n stamp len c k =
      if s.service ≠ .serving then .next ((s.numbered n).countDevice .refused 1)
      else if s.params.noticeAge < ahead s.bpu.position (if (atOrBeyond stamp s.bpu.position && stamp != s.bpu.position) = true then s.bpu.position else stamp) then
        .next (((s.numbered n).countDevice .stale 1).raise .intake)
      else (s.numbered n).create n (if (atOrBeyond stamp s.bpu.position && stamp != s.bpu.position) = true then s.bpu.position else stamp) len c k
        (atOrBeyond stamp s.bpu.position && stamp != s.bpu.position) := by
  unfold State.judgeNotice
  rw [if_neg (show ¬128 ≤ (n - s.heard.ilc.e).toNat from Nat.not_le.mpr h1),
    if_neg (show ¬((s.heard.ilc.l - n).toNat < 1 ∨ 128 < (s.heard.ilc.l - n).toNat) from not_or.mpr ⟨Nat.not_lt.mpr h2, Nat.not_lt.mpr h3⟩), State.numbered_eq]
  rw [show s.heard.ilc.e = s.ilc.e from rfl]
  by_cases hgap : (n - s.ilc.e).toNat = 0
  · simp only [hgap, if_true]
    rfl
  · simp only [hgap, if_false]
    rfl

/-- A stamp at most half the range behind is not beyond the position. -/
theorem atOrBeyond_and_ne {p q : Pos} (h : (p - q).toNat ≤ 8388608) : (atOrBeyond q p && q != p) = false := by
  by_cases e : q = p
  · simp [e]
  · have hne : (p - q).toNat ≠ 0 := fun h0 => e (by
      have hz : p - q = 0#24 := BitVec.eq_of_toNat_eq h0
      bv_omega)
    unfold atOrBeyond
    rw [Bool.and_eq_false_iff]
    left
    simp only [decide_eq_false_iff_not]
    bv_omega

/-- Settles O30: the checks one after another. -/
theorem noticeChecksDropInOrder : Obligations.NoticeChecksDropInOrder := by
  rintro s n stamp len c k i gap d gapLatch hlink rfl rfl rfl rfl
  rw [exec_notice_active hlink]
  refine ⟨fun h => ?_, fun h hcredit => ?_, fun h h1 h2 => ⟨fun hs => ?_, fun hs hfar hage => ?_⟩⟩
  · exact if_pos h
  · exact (if_neg (by exact Nat.not_le.mpr h)).trans (if_pos hcredit)
  · rw [State.judgeNotice_numbered h h1 h2, if_pos hs]
    rw [State.numbered_eq]
    by_cases hgap : (n - s.ilc.e).toNat = 0
    · have hzero : s.tau.latches ||| 0 = s.tau.latches := BitVec.or_zero
      simp only [hgap, if_true, hzero]
      rfl
    · simp only [hgap, if_false]
      rfl
  · rw [State.judgeNotice_numbered h h1 h2, if_neg (not_not.mpr hs), atOrBeyond_and_ne hfar]
    simp only [Bool.false_eq_true, if_false]
    rw [if_pos (by exact hage), State.numbered_eq]
    by_cases hgap : (n - s.ilc.e).toNat = 0
    · simp only [hgap, if_true]
      rfl
    · simp only [hgap, if_false]
      refine congrArg Host.Outcome.next ?_
      simp only [State.raise, State.countDevice, Source.bit, BitVec.or_assoc, BitVec.or_self]
      rfl

/-! ### Beacons -/

theorem exec_beacon (s : State) : exec .beacon s = .next (s.takeDue .beacon) := rfl

theorem State.stands_beacon (s : State) : s.stands .beacon = true ↔ s.ilc.link ≠ .offline ∧ 0 < s.ilc.beaconTimer := by
  simp [State.stands]

/-- A beacon composed, with PRESSURE at an allowance of 0 (R147, R148). -/
theorem State.composeBeacon_eq {s : State} {allowance : Nat} {l : Byte} (ha : allowance = s.allowance)
    (hl : l = if s.service = .serving ∧ s.ilc.link = .active then s.ilc.e + BitVec.ofNat 8 allowance else s.ilc.e) :
    s.composeBeacon = ({ s with ilc := { s.ilc with l := l, beaconTimer := 0, tx := s.ilc.tx.hand (beaconFrame s.bpu.position l) } } : State).withLatches
      (if s.service = .serving ∧ s.ilc.link = .active ∧ allowance = 0 then 0x20 else 0) := by
  subst ha
  unfold State.composeBeacon State.raiseIf
  dsimp only
  rw [← hl]
  simp only [decide_eq_true_eq, and_assoc]
  split
  · rfl
  · rw [State.withLatches_zero]

theorem byteLevels_length (b : Byte) : (byteLevels b).length = 10 := rfl

/-- Bit `j` of byte `k` of a frame on the line. -/
theorem getElem?_flatMap_byteLevels {bytes : List Byte} {k : Nat} {b : Byte} (h : bytes[k]? = some b) {j : Nat} (hj : j < 10) :
    (bytes.flatMap byteLevels)[10 * k + j]? = (byteLevels b)[j]? := by
  induction bytes generalizing k with
  | nil => cases h
  | cons x rest ih =>
    rw [List.flatMap_cons]
    cases k with
    | zero =>
      obtain rfl : x = b := Option.some.inj h
      rw [List.getElem?_append_left (by rw [byteLevels_length]; omega), Nat.mul_zero, Nat.zero_add]
    | succ k =>
      rw [List.getElem?_append_right (by rw [byteLevels_length]; omega), byteLevels_length, show 10 * (k + 1) + j - 10 = 10 * k + j by omega]
      exact ih h

theorem length_flatMap_byteLevels (bytes : List Byte) : (bytes.flatMap byteLevels).length = 10 * bytes.length := by
  induction bytes with
  | nil => rfl
  | cons x rest ih =>
    rw [List.flatMap_cons, List.length_append, ih, byteLevels_length, List.length_cons]
    omega

theorem byteLevels_data (b : Byte) {j : Nat} (h : j < 8) : (byteLevels b)[1 + j]? = some (b.getLsbD j) := by
  interval_cases j <;> rfl

/-- Settles O36: the beacon composed, the transmitter, the bytes, and the levels of the line. -/
theorem beaconsCarryPositionAndCredit : Obligations.BeaconsCarryPositionAndCredit := by
  intro s allowance l ha hl
  simp only [exec_beacon, ← s.stands_beacon]
  refine ⟨fun ⟨hdue, hs⟩ => ?_, fun h => by rw [State.takeDue_of_not h], ?_, ?_, fun h i => ?_, fun now waiting k j b htx hb => ?_⟩
  · rw [State.takeDue_of hdue hs]
    exact congrArg _ ((State.composeBeacon_eq (s := s.dropDue .beacon) ha hl).trans (by rw [Transmitter.hand_eq]; rfl))
  · show execBeaconTransmitDone s = _
    unfold execBeaconTransmitDone
    cases htx : s.ilc.tx with
    | idle =>
      dsimp only
      rw [← htx]
    | sending now waiting => cases waiting <;> rfl
  · simp [beaconFrame, linkFrame, be, startByte]
  · unfold State.linkTx
    rw [h]
    rfl
  · have hline : ∀ i, s.linkTx i = ((now ++ waiting.getD []).flatMap byteLevels).getD i true := fun i => by
      unfold State.linkTx
      rw [htx]
      rfl
    have hbit : ∀ i, i < 10 → s.linkTx (10 * k + i) = (byteLevels b).getD i true := fun i hi => by
      rw [hline, List.getD_eq_getElem?_getD, getElem?_flatMap_byteLevels hb hi, ← List.getD_eq_getElem?_getD]
    refine ⟨fun i hi => ?_, hbit 0 (by omega), fun hj => ?_, hbit 9 (by omega)⟩
    · rw [hline, List.getD_eq_default _ _ (by rw [length_flatMap_byteLevels]; exact hi)]
    · rw [Nat.add_assoc, hbit (1 + j) (by omega), List.getD_eq_getElem?_getD, byteLevels_data b hj]
      rfl

/-! ### The receive line and the assembler -/

theorem exec_receivedByte (levels : List Bool) (s : State) : exec (.receivedByte levels) s = s.takeLevels levels := rfl

theorem exec_byteLevels {s : State} (h : s.ilc.rx = .idle) (b : Byte) : exec (.receivedByte (byteLevels b)) s = s.takeByte b := State.takeLevels_byteLevels s b h

theorem State.takeLevels_nothing {s : State} {level : Bool} {rx : RxLine} (h : s.ilc.rx.take level = (rx, .nothing)) (rest : List Bool) :
    s.takeLevels (level :: rest) = (s.setRx rx).takeLevels rest := by
  unfold State.takeLevels
  rw [h]
  cases rest <;> rfl

theorem State.takeLevels_error {s : State} {level : Bool} {rx : RxLine} (h : s.ilc.rx.take level = (rx, .error)) (rest : List Bool) :
    s.takeLevels (level :: rest) = .next (s.setRx rx).byteError := by
  unfold State.takeLevels
  rw [h]

theorem State.takeLevels_received {s : State} {level : Bool} {rx : RxLine} {b : Byte} (h : s.ilc.rx.take level = (rx, .received b)) (rest : List Bool) :
    s.takeLevels (level :: rest) = (s.setRx rx).takeByte b := by
  unfold State.takeLevels
  rw [h]

/-- The kinds of frame with a payload length (R137). -/
theorem payloadLength_eq {ty : Byte} {n : Nat} :
    payloadLength ty = some n ↔ (ty = 0x01 ∧ n = 1) ∨ (ty = 0x02 ∧ n = 0) ∨ (ty = 0x03 ∧ n = 8) ∨ (ty = 0x04 ∧ n = 4) := by
  have hty : ∀ c : Byte, ty = c ↔ ty.toNat = c.toNat := fun c => BitVec.toNat_eq
  rw [hty, hty, hty, hty]
  simp only [BitVec.reduceToNat]
  unfold payloadLength
  split
  · next h => rw [h]; simp [eq_comm]
  · next h => rw [h]; simp [eq_comm]
  · next h => rw [h]; simp [eq_comm]
  · next h => rw [h]; simp [eq_comm]
  · next h1 h2 h3 h4 =>
    simp only [reduceCtorEq, false_iff]
    rintro (⟨h, -⟩ | ⟨h, -⟩ | ⟨h, -⟩ | ⟨h, -⟩)
    exacts [h1 h, h2 h, h3 h, h4 h]

/-- A state with its frame assembler replaced. -/
def State.assembling (s : State) (a : Assembler) : State := { s with ilc := { s.ilc with assembler := a } }

theorem State.takeByte_hunt {s : State} (h : s.ilc.assembler = .hunt) (b : Byte) : s.takeByte b = .next (if b = 0xA5 then s.assembling .type else s) := by
  unfold State.takeByte
  rw [h]
  dsimp only
  by_cases hb : b = 0xA5
  · rw [if_pos hb]
    exact if_pos hb
  · rw [if_neg hb]
    exact if_neg hb

theorem State.takeByte_type {s : State} (h : s.ilc.assembler = .type) (b : Byte) : s.takeByte b = .next (s.assembling (.length b)) := by
  unfold State.takeByte
  rw [h]
  rfl

theorem State.takeByte_length {s : State} {ty b : Byte} (h : s.ilc.assembler = .length ty) (hl : payloadLength ty = some b.toNat) :
    s.takeByte b = .next (s.assembling (if b.toNat = 0 then .check ty [] else .payload ty b.toNat [])) := by
  unfold State.takeByte
  rw [h]
  exact if_pos hl

theorem State.takeByte_length_bad {s : State} {ty b : Byte} (h : s.ilc.assembler = .length ty) (hl : payloadLength ty ≠ some b.toNat) : s.takeByte b = .next s.badFrame := by
  unfold State.takeByte
  rw [h]
  exact if_neg hl

theorem State.takeByte_payload {s : State} {ty : Byte} {left : Nat} {got : List Byte} (h : s.ilc.assembler = .payload ty left got) (b : Byte) :
    s.takeByte b = .next (s.assembling (if left ≤ 1 then .check ty (got ++ [b]) else .payload ty (left - 1) (got ++ [b]))) := by
  unfold State.takeByte
  rw [h]
  rfl

theorem State.takeByte_check_bad {s : State} {ty b : Byte} {got : List Byte} (h : s.ilc.assembler = .check ty got) (hb : b ≠ crc8 (ty :: BitVec.ofNat 8 got.length :: got)) :
    s.takeByte b = .next s.badFrame := by
  unfold State.takeByte
  rw [h]
  exact if_neg hb

theorem State.takeByte_check {s : State} {ty : Byte} {got : List Byte} {frame : Instr} (h : s.ilc.assembler = .check ty got) (hf : decodeIntake ty got = some frame) :
    s.takeByte (crc8 (ty :: BitVec.ofNat 8 got.length :: got)) = s.takeFrame frame := by
  unfold State.takeByte
  rw [h]
  dsimp only
  rw [if_pos rfl, hf]

/-- Settles O37: the receive line by what it holds, and the assembler by its state. -/
theorem receivedBytesAssembleAFrame : Obligations.ReceivedBytesAssembleAFrame := by
  refine ⟨fun s level rest bits b => ⟨rfl, fun h => ⟨?_, ?_⟩, fun h hlen => ?_, fun h hlen => ?_, fun h => ?_, rfl⟩, fun s b ty left got at' hrx hat => ?assembler⟩
  · rw [exec_receivedByte, State.takeLevels_nothing (rx := .idle) (by rw [h]; rfl), State.setRx_idle h]
    rfl
  · rw [exec_receivedByte, State.takeLevels_nothing (rx := .byte []) (by rw [h]; rfl)]
    rfl
  · rw [exec_receivedByte, State.takeLevels_nothing (rx := .byte (bits ++ [level])) (by rw [h]; exact if_pos hlen)]
    rfl
  · rw [exec_receivedByte, State.takeLevels_error (rx := .idle) (by rw [h]; exact if_neg (Nat.not_lt.mpr hlen))]
    rfl
  · have hbyte : byteOfBits ([0, 1, 2, 3, 4, 5, 6, 7].map b.getLsbD) = b := byteOfBits_bits b
    have hline : s.ilc.rx.take true = (.idle, .received b) := by
      rw [h, RxLine.take, hbyte]
      exact if_neg (Nat.lt_irrefl 8)
    rw [exec_receivedByte, State.takeLevels_received hline, exec_byteLevels (s := { s with ilc := { s.ilc with rx := .idle } }) rfl]
    rfl
  case assembler =>
    obtain rfl : at' = s.assembling := funext hat
    rw [exec_byteLevels hrx]
    have hidle := State.setRx_idle hrx
    refine ⟨fun h => State.takeByte_hunt h b, fun h => State.takeByte_type h b, fun h => ⟨fun hk => ?_, ?_, fun hk => ?_⟩, fun h => State.takeByte_payload h b, fun h hb => ?_⟩
    · have hpos : payloadLength ty = some b.toNat ∧ b.toNat ≠ 0 := by
        simp only [List.mem_cons, Prod.mk.injEq, List.not_mem_nil, or_false] at hk
        obtain ⟨rfl, rfl⟩ | ⟨rfl, rfl⟩ | ⟨rfl, rfl⟩ := hk <;> decide
      rw [State.takeByte_length h hpos.1, if_neg hpos.2]
    · rintro rfl rfl
      exact State.takeByte_length h (by decide)
    · rw [State.takeByte_length_bad h, ← hidle]
      · rfl
      · rw [Ne, payloadLength_eq]
        simp only [List.mem_cons, Prod.mk.injEq, List.not_mem_nil, or_false] at hk
        have hnat : ∀ n : Byte, b.toNat = n.toNat → b = n := fun n => BitVec.eq_of_toNat_eq
        rintro (⟨h1, h2⟩ | ⟨h1, h2⟩ | ⟨h1, h2⟩ | ⟨h1, h2⟩)
        · exact hk (.inl ⟨h1, hnat 1 h2⟩)
        · exact hk (.inr (.inl ⟨h1, hnat 0 h2⟩))
        · exact hk (.inr (.inr (.inl ⟨h1, hnat 8 h2⟩)))
        · exact hk (.inr (.inr (.inr ⟨h1, hnat 4 h2⟩)))
    · rw [State.takeByte_check_bad h hb, ← hidle]
      rfl

/-! ### Whole frames -/

theorem receiveAll_cons {s t : State} {b : Byte} (hrx : s.ilc.rx = .idle) (h : s.takeByte b = .next t) (rest : List Byte) : receiveAll (b :: rest) s = receiveAll rest t := by
  rw [receiveAll, exec_byteLevels hrx, h]

/-- The payload of a frame gathered to its check byte (R137). -/
theorem receiveAll_payload {s : State} (hrx : s.ilc.rx = .idle) (ty : Byte) (tail rest : List Byte) (b : Byte) (got : List Byte) :
    receiveAll (b :: rest ++ tail) (s.assembling (.payload ty (rest.length + 1) got)) = receiveAll tail (s.assembling (.check ty (got ++ b :: rest))) := by
  induction rest generalizing b got with
  | nil => exact receiveAll_cons (s := s.assembling (.payload ty 1 got)) hrx (State.takeByte_payload rfl b) tail
  | cons c rest ih =>
    have hbyte : (s.assembling (.payload ty (rest.length + 2) got)).takeByte b = .next (s.assembling (.payload ty (rest.length + 1) (got ++ [b]))) := by
      rw [State.takeByte_payload (s := s.assembling (.payload ty (rest.length + 2) got)) rfl b, if_neg (by omega)]
      rfl
    have hstep : receiveAll (b :: (c :: rest ++ tail)) (s.assembling (.payload ty (rest.length + 2) got))
        = receiveAll (c :: rest ++ tail) (s.assembling (.payload ty (rest.length + 1) (got ++ [b]))) :=
      receiveAll_cons (s := s.assembling (.payload ty (rest.length + 2) got)) hrx hbyte _
    rw [List.cons_append, List.length_cons]
    rw [hstep, ih, List.append_assoc]
    rfl

/-- A frame received from HUNT to its check byte, and taken there (R137). -/
theorem receiveAll_linkFrame {s : State} {ty : Byte} {payload : List Byte} {frame : Instr} (hrx : s.ilc.rx = .idle) (hh : s.ilc.assembler = .hunt)
    (hl : payloadLength ty = some payload.length) (hf : decodeIntake ty payload = some frame) :
    receiveAll (linkFrame ty payload) s = (s.assembling (.check ty payload)).takeFrame frame := by
  have hshort : payload.length ≤ 8 := by
    obtain ⟨-, h⟩ | ⟨-, h⟩ | ⟨-, h⟩ | ⟨-, h⟩ := payloadLength_eq.mp hl <;> omega
  have hbyte : (BitVec.ofNat 8 payload.length).toNat = payload.length := Nat.mod_eq_of_lt (by omega)
  have hcheck : receiveAll [crc8 (ty :: BitVec.ofNat 8 payload.length :: payload)] (s.assembling (.check ty payload)) = (s.assembling (.check ty payload)).takeFrame frame := by
    rw [receiveAll, exec_byteLevels (s := s.assembling (.check ty payload)) hrx, State.takeByte_check rfl hf]
    cases (s.assembling (.check ty payload)).takeFrame frame <;> rfl
  show receiveAll (startByte :: ty :: BitVec.ofNat 8 payload.length :: (payload ++ [crc8 (ty :: BitVec.ofNat 8 payload.length :: payload)])) s = _
  rw [receiveAll_cons hrx (State.takeByte_hunt hh startByte), if_pos (show startByte = 0xA5 from rfl),
    receiveAll_cons (s := s.assembling .type) hrx (State.takeByte_type rfl ty),
    receiveAll_cons (s := (s.assembling .type).assembling (.length ty)) hrx (State.takeByte_length rfl (by rw [hbyte]; exact hl)), hbyte]
  cases payload with
  | nil => exact hcheck
  | cons b rest =>
    exact (receiveAll_payload hrx ty _ rest b []).trans hcheck

/-! ### The fields of a frame -/

theorem foldl_be (n v acc : Nat) : (be n v).foldl (fun acc b => acc * 256 + b.toNat) acc = acc * 256 ^ n + v % 256 ^ n := by
  induction n generalizing acc with
  | zero => simp [be, Nat.mod_one]
  | succ n ih =>
    have hdigit : v % 256 ^ (n + 1) = v / 256 ^ n % 256 * 256 ^ n + v % 256 ^ n := by
      rw [pow_succ, Nat.mod_mul, Nat.mul_comm, Nat.add_comm]
    rw [be, List.foldl_cons, ih, hdigit, BitVec.toNat_ofNat, pow_succ 256 n, show 2 ^ 8 = 256 from rfl]
    ring

/-- The bytes of a number are read back (spec/11). -/
theorem ofBe_be (n v : Nat) : ofBe (be n v) = v % 256 ^ n := by
  rw [ofBe, foldl_be]
  omega

theorem ofNat_ofBe_be {w : Nat} (n : Nat) (x : BitVec w) (h : 2 ^ w ≤ 256 ^ n) : BitVec.ofNat w (ofBe (be n x.toNat)) = x := by
  rw [ofBe_be, Nat.mod_eq_of_lt (Nat.lt_of_lt_of_le x.isLt h), BitVec.ofNat_toNat, BitVec.setWidth_eq]

theorem fin_ofNat_byte {n : Nat} [NeZero n] (i : Fin n) (h : n ≤ 256) : Fin.ofNat n (BitVec.ofNat 8 i.val).toNat = i := by
  apply Fin.ext
  have hi := i.isLt
  rw [BitVec.toNat_ofNat, Nat.mod_eq_of_lt (by omega)]
  exact Nat.mod_eq_of_lt hi

theorem decodeIntake_payload {c : Instr} {ty : Byte} (h : intakeType c = some ty) :
    payloadLength ty = some (intakePayload c).length ∧ decodeIntake ty (intakePayload c) = some c := by
  cases c with
  | join level => cases h; exact ⟨rfl, rfl⟩
  | keepalive => cases h; exact ⟨rfl, rfl⟩
  | notice n stamp len cls key =>
    cases h
    refine ⟨rfl, ?_⟩
    have hdec : decodeIntake 0x03 (intakePayload (.notice n stamp len cls key)) = some (.notice n (BitVec.ofNat 24 (ofBe (be 3 stamp.toNat)))
        (BitVec.ofNat 16 (ofBe (be 2 len.toNat))) (Fin.ofNat 64 (BitVec.ofNat 8 cls.val).toNat) (Fin.ofNat 16 (BitVec.ofNat 8 key.val).toNat)) := rfl
    rw [hdec, ofNat_ofBe_be 3 stamp (by decide), ofNat_ofBe_be 2 len (by decide), fin_ofNat_byte cls (by decide), fin_ofNat_byte key (by decide)]
  | revise n sc sk cls key =>
    cases h
    refine ⟨rfl, ?_⟩
    have hdec : ∀ m : Byte, decodeIntake 0x04 [n, m, BitVec.ofNat 8 cls.val, BitVec.ofNat 8 key.val] = some (.revise n (m.getLsbD 0) (m.getLsbD 1)
        (Fin.ofNat 64 (BitVec.ofNat 8 cls.val).toNat) (Fin.ofNat 16 (BitVec.ofNat 8 key.val).toNat)) := fun _ => rfl
    have hsel : ((if sc then 1 else 0) + (if sk then 2 else 0) : Byte).getLsbD 0 = sc ∧ ((if sc then 1 else 0) + (if sk then 2 else 0) : Byte).getLsbD 1 = sk := by
      cases sc <;> cases sk <;> decide
    rw [intakePayload, hdec, fin_ofNat_byte cls (by decide), fin_ofNat_byte key (by decide), hsel.1, hsel.2]
  | _ => cases h

/-- A frame taken at its check byte is the frame's command: the assembler is not read (R139). -/
theorem State.takeFrame_assembling {c : Instr} {ty : Byte} (h : intakeType c = some ty) {s : State} (hrx : s.ilc.rx = .idle) (a : Assembler) :
    (s.assembling a).takeFrame c = exec c s := by
  have hidle := State.setRx_idle hrx
  cases c with
  | join level =>
    rw [exec_join, hidle]
    refine congrArg Host.Outcome.next ?_
    unfold State.takeJoin
    split <;> rfl
  | keepalive => rw [exec_keepalive, hidle]; rfl
  | notice n stamp len cls key => rw [exec_notice, hidle]; rfl
  | revise n sc sk cls key => rw [exec_revise, hidle]; rfl
  | _ => cases h

/-- Settles O38: the bytes go through the assembler to the check byte, and the frame read back is the command. -/
theorem frameBytesDoWhatTheFrameDoes : Obligations.FrameBytesDoWhatTheFrameDoes := by
  intro c ty s hc hrx hh
  obtain ⟨hl, hf⟩ := decodeIntake_payload hc
  rw [receiveAll_linkFrame hrx hh hl hf, State.takeFrame_assembling hc hrx]

/-! ### The CRC-8 -/

/-- One bit brought in is one shift, with the bits not yet brought in kept apart (R136). -/
theorem crcBit_xor (x y : Byte) : crcBit (x ^^^ y) y.msb = crcShift x ^^^ (y <<< 1) := by
  unfold crcBit crcShift
  rw [BitVec.msb_xor, BitVec.shiftLeft_xor_distrib]
  cases x.msb <;> cases y.msb <;> simp [BitVec.xor_assoc, BitVec.xor_comm (y <<< 1)]

/-- The bit-serial form brings a byte in as the byte-wise form does (R136). -/
theorem foldl_crcBit_bitsOf (r b : Byte) : (bitsOf b).foldl crcBit r = crcByte r b := by
  have hbits : bitsOf b = [b.msb, (b <<< 1).msb, (b <<< 1 <<< 1).msb, (b <<< 1 <<< 1 <<< 1).msb, (b <<< 1 <<< 1 <<< 1 <<< 1).msb,
      (b <<< 1 <<< 1 <<< 1 <<< 1 <<< 1).msb, (b <<< 1 <<< 1 <<< 1 <<< 1 <<< 1 <<< 1).msb, (b <<< 1 <<< 1 <<< 1 <<< 1 <<< 1 <<< 1 <<< 1).msb] := by
    simp [bitsOf, BitVec.msb_eq_getLsbD_last]
  have hstart : r = (r ^^^ b) ^^^ b := by rw [BitVec.xor_assoc, BitVec.xor_self, BitVec.xor_zero]
  have hend : b <<< 1 <<< 1 <<< 1 <<< 1 <<< 1 <<< 1 <<< 1 <<< 1 = 0 := by
    apply BitVec.eq_of_getLsbD_eq
    intro i hi
    simp
  rw [hbits]
  conv_lhs => rw [hstart]
  simp only [List.foldl_cons, List.foldl_nil, crcBit_xor, hend]
  exact BitVec.xor_zero

theorem crcByte_self (r : Byte) : crcByte r r = 0 := by
  unfold crcByte
  rw [BitVec.xor_self]
  decide

/-- Settles O39: byte by byte, and the register against itself. -/
theorem crcIsBitSerialWithResidueZero : Obligations.CrcIsBitSerialWithResidueZero := by
  refine ⟨fun bytes => ?_, fun bytes => ?_, by decide +kernel⟩
  · rw [List.foldl_flatMap]
    simp only [foldl_crcBit_bitsOf]
    rfl
  · rw [crc8, List.foldl_append]
    exact crcByte_self _

end Sys2Proof.Machine
end


section
/-! PROOFS. The frames of the supervisor port: reads, bad frames, and the frame of every request (spec/08). -/

namespace Sys2Proof.Machine
open Sys2Proof.Laws

/-! ### Requests and the reset hold -/

/-- Every request is served (R181). -/
theorem exec_request {c : Instr} (h : requestCode c ≠ none) : (∃ body, exec c = serve c body) ∧ carryOut c = exec c := by
  cases c with
  | powerOnReset | millisecondTick | encoderStep | speedWindowExpiry | stall | strokeEnd | recoveryEnd | homeTimeout | homeLevelAccepted | confirmWindowExpiry | rackArrival | rackRemoval
  | swapPress | passage | chuteBlocked | chuteClear | badFrame | join | keepalive | notice | revise | syncTimeout | linkSilenceTimeout | beacon | beaconTransmitDone | readResponse
  | encoderSample | receivedByte | badPortFrame | resetHoldCleared => exact absurd rfl h
  | _ => exact ⟨⟨_, rfl⟩, rfl⟩

theorem exec_held {c : Instr} {s : State} (h : requestCode c ≠ none) (hhold : s.sp.resetHold = true) : exec c s = .next s := by
  obtain ⟨⟨body, hb⟩, -⟩ := exec_request h
  rw [hb]
  exact if_pos hhold

theorem exec_readResponse (n : Nat) (s : State) : exec (.readResponse n) s = .next (s.readTransaction n) := rfl

theorem exec_badPortFrame (bytes : List Byte) (extra : Nat) (s : State) : exec (.badPortFrame bytes extra) s = s.transaction bytes extra := rfl

/-- No transaction begins in the reset hold (R175, R180). -/
theorem exec_badPortFrame_held {s : State} (hhold : s.sp.resetHold = true) (bytes : List Byte) (extra : Nat) : exec (.badPortFrame bytes extra) s = .next s := by
  rw [exec_badPortFrame]
  unfold State.transaction
  cases bytes with
  | nil => rfl
  | cons code rest =>
    dsimp only
    rw [State.readTransaction, if_pos hhold, if_pos hhold]
    split <;> rfl

/-- Settles O40: the reset hold, and the bytes clocked out of a read. -/
theorem readsClockOutTheResponse : Obligations.ReadsClockOutTheResponse := by
  intro s
  refine ⟨fun hhold n => ?_, fun hhold => ⟨fun n => ?_, fun c hc => exec_held hc hhold, fun bytes extra => ?_⟩, rfl⟩
  · have hread : s.readTransaction n = { s with sp := { s.sp with ready := false, miso := 0xFF :: ((s.sp.response.map Response.frame).getD []).take n } } := by
      unfold State.readTransaction
      rw [hhold]
      rfl
    rw [exec_readResponse, hread]
    refine ⟨_, rfl, rfl, rfl, fun hr i => ?_, fun r bytes hr hb i => ?_⟩
    · unfold State.misoByte
      dsimp only
      rw [hr]
      cases i <;> simp
    · have hframe : bytes = r.frame := hb
      unfold State.misoByte
      dsimp only
      rw [hr, hframe, List.getD_cons_succ]
      simp only [Option.map_some, Option.getD_some, List.getD_eq_getElem?_getD, List.getElem?_take]
      split <;> rfl
  · rw [exec_readResponse, State.readTransaction, if_pos hhold]
  · exact exec_badPortFrame_held hhold bytes extra

/-! ### The judgement of a request frame -/

/-- The codes of the requests (spec/11). -/
theorem knownRequest_iff (code : Byte) : knownRequest code = true ↔ code.toNat ∈ [0x01, 0x02, 0x03, 0x10, 0x11, 0x12, 0x13, 0x14, 0x15, 0x16, 0x17, 0x20, 0x21, 0x22, 0x23, 0x24, 0x25, 0x30, 0x31,
    0x32, 0x40, 0x41, 0x42, 0x43, 0x44, 0x50, 0x51, 0x52] := by
  simp only [knownRequest, Bool.or_eq_true, Bool.and_eq_true, decide_eq_true_eq, List.mem_cons, List.not_mem_nil, or_false]
  omega

theorem decodeRequest0_permitted {n : Nat} {c : Instr} (h : decodeRequest0 n = some c) : (n, 0) ∈ permitted := by
  unfold decodeRequest0 at h
  split at h
  case h_9 => cases h
  all_goals decide

theorem outletRequest_permitted {n : Nat} {x : Byte} {c : Instr} (h : outletRequest n x = some c) : (n, 1) ∈ permitted := by
  unfold outletRequest at h
  split at h
  case h_8 => cases h
  all_goals decide

theorem decodeRequest1_permitted {n : Nat} {x : Byte} {c : Instr} (h : decodeRequest1 n x = some c) : (n, 1) ∈ permitted := by
  unfold decodeRequest1 at h
  split at h
  · decide
  · decide
  · exact outletRequest_permitted h

theorem decodeRequest2_permitted {n : Nat} {x y : Byte} {c : Instr} (h : decodeRequest2 n x y = some c) : (n, 2) ∈ permitted := by
  unfold decodeRequest2 at h
  split at h
  case h_5 => cases h
  all_goals decide

theorem decodeRequest3_permitted {n : Nat} {x y z : Byte} {c : Instr} (h : decodeRequest3 n x y z = some c) : (n, 3) ∈ permitted := by
  unfold decodeRequest3 at h
  split at h
  case h_4 => cases h
  all_goals decide

theorem decodeRequest5_permitted {n : Nat} {a b c d e : Byte} {i : Instr} (h : decodeRequest5 n a b c d e = some i) : (n, 5) ∈ permitted := by
  unfold decodeRequest5 at h
  split at h
  case h_4 => cases h
  all_goals decide

/-- The permitted numbers of argument bytes (R177). -/
theorem decodeRequest_permitted {code : Byte} {args : List Byte} {c : Instr} (h : decodeRequest code args = some c) : (code.toNat, args.length) ∈ permitted := by
  unfold decodeRequest at h
  dsimp only at h
  split at h
  · exact decodeRequest0_permitted h
  · exact decodeRequest1_permitted h
  · exact decodeRequest2_permitted h
  · exact decodeRequest3_permitted h
  · split at h
    · next e => rw [e]; exact (show (0x02, 4) ∈ permitted by decide)
    · cases h
  · exact decodeRequest5_permitted h
  · split at h
    · next e => rw [e]; exact (show (0x20, 7) ∈ permitted by decide)
    · cases h
  · split at h
    · next e => rw [e]; exact (show (0x10, 10) ∈ permitted by decide)
    · cases h
  · cases h

/-- A frame whose form fails is bad (R177, the first judgement). -/
theorem judgePortFrame_bad {bytes : List Byte} {extra : Nat} (h : extra ≠ 0 ∨ bytes.length < 3 ∨ 16 < (bytes.getD 1 0).toNat ∨ bytes.length ≠ 3 + (bytes.getD 1 0).toNat
    ∨ bytes.getLast? ≠ some (crc8 bytes.dropLast)) : judgePortFrame bytes extra = .bad := by
  obtain _ | ⟨code, _ | ⟨len, _ | ⟨x, rest⟩⟩⟩ := bytes
  · rfl
  · rfl
  · exact if_pos (.inr (.inl rfl))
  · refine if_pos ?_
    simp only [List.length_cons, List.getD_cons_succ, List.getD_cons_zero, List.getLast?_cons_cons, List.dropLast_cons_cons] at h ⊢
    obtain h | h | h | h | h := h
    · exact .inl h
    · omega
    · exact .inr (.inr (.inl h))
    · exact .inr (.inr (.inr (.inl h)))
    · exact .inr (.inr (.inr (.inr h)))

/-- A frame in form is judged by its code and its arguments (R177). -/
theorem judgePortFrame_formed {code len crc : Byte} {args : List Byte} (hl : len.toNat = args.length) (h16 : len.toNat ≤ 16) (hcrc : crc = crc8 (code :: len :: args)) :
    judgePortFrame (code :: len :: args ++ [crc]) 0 = if knownRequest code = false then .unknown else
      match decodeRequest code args with
      | none => .bad
      | some c => .request c := by
  have hform : ¬((0 : Nat) ≠ 0 ∨ args ++ [crc] = [] ∨ 16 < len.toNat ∨ (code :: len :: (args ++ [crc])).length ≠ 3 + len.toNat
      ∨ (args ++ [crc]).getLast? ≠ some (crc8 (code :: len :: (args ++ [crc]).dropLast))) := by
    simp only [List.dropLast_concat, List.getLast?_concat, ← hcrc, List.length_cons, List.length_append, List.length_nil, hl]
    simp
    omega
  rw [List.cons_append, List.cons_append]
  unfold judgePortFrame
  dsimp only
  rw [if_neg hform, List.dropLast_concat] <;> rfl

/-- A request transaction out of the reset hold (R176, R177). -/
theorem exec_badPortFrame_request {s : State} {bytes : List Byte} (hhold : s.sp.resetHold = false) (hread : bytes.head? ≠ some 0x5A) (hne : bytes ≠ []) (extra : Nat) :
    exec (.badPortFrame bytes extra) s = match judgePortFrame bytes extra with
      | .bad => .next (s.respond bytes (refuse .badFrame))
      | .unknown => .next (s.respond bytes (refuse .unknownRequest))
      | .request c => carryOut c s := by
  rw [exec_badPortFrame]
  cases bytes with
  | nil => exact absurd rfl hne
  | cons code rest =>
    have hcode : code ≠ readCode := fun e => hread (congrArg some e)
    unfold State.transaction
    dsimp only
    rw [if_neg hcode, hhold]
    rfl

/-- Settles O41: the three judgements in their order, each answered by itself. -/
theorem badPortFramesAreAnsweredAlone : Obligations.BadPortFramesAreAnsweredAlone := by
  refine ⟨fun s extra => rfl, fun s bytes extra code len crc args answer hhold hread hne hans => ⟨fun h => ?_, ?_⟩⟩
  · rw [exec_badPortFrame_request hhold hread hne, judgePortFrame_bad h, hans]
    rfl
  · rintro rfl rfl hl h16 hcrc
    rw [exec_badPortFrame_request hhold hread hne, judgePortFrame_formed hl h16 hcrc]
    refine ⟨fun h => ?_, fun h hp => ?_⟩
    · rw [if_pos (by rw [← Bool.not_eq_true, knownRequest_iff]; exact h), hans]
      rfl
    · have hknown : knownRequest code = true := (knownRequest_iff code).mpr h
      have hnone : decodeRequest code args = none := Option.eq_none_iff_forall_ne_some.mpr fun c hc => hp (decodeRequest_permitted hc)
      rw [if_neg (by simp [hknown]), hnone, hans]
      rfl

/-! ### The frame of every request -/

theorem requestArgs_length (c : Instr) : (requestArgs c).length ≤ 16 := by
  cases c with
  | setOutletField o f v => cases v <;> exact Nat.le_of_ble_eq_true rfl
  | nextTrack t => cases t <;> exact Nat.le_of_ble_eq_true rfl
  | _ => exact Nat.le_of_ble_eq_true rfl

theorem requestCode_known {c : Instr} {code : Byte} (h : requestCode c = some code) : knownRequest code = true ∧ code ≠ readCode := by
  cases c with
  | powerOnReset | millisecondTick | encoderStep | speedWindowExpiry | stall | strokeEnd | recoveryEnd | homeTimeout | homeLevelAccepted | confirmWindowExpiry | rackArrival | rackRemoval
  | swapPress | passage | chuteBlocked | chuteClear | badFrame | join | keepalive | notice | revise | syncTimeout | linkSilenceTimeout | beacon | beaconTransmitDone | readResponse
  | encoderSample | receivedByte | badPortFrame | resetHoldCleared => cases h
  | _ => cases h; decide

/-- The arguments of a request are read back as the request (spec/11). -/
theorem decodeRequest_args {c : Instr} {code : Byte} (h : requestCode c = some code) : decodeRequest code (requestArgs c) = some c := by
  cases c with
  | powerOnReset | millisecondTick | encoderStep | speedWindowExpiry | stall | strokeEnd | recoveryEnd | homeTimeout | homeLevelAccepted | confirmWindowExpiry | rackArrival | rackRemoval
  | swapPress | passage | chuteBlocked | chuteClear | badFrame | join | keepalive | notice | revise | syncTimeout | linkSilenceTimeout | beacon | beaconTransmitDone | readResponse
  | encoderSample | receivedByte | badPortFrame | resetHoldCleared => cases h
  | setParam n v => cases h; exact congrArg (fun v => some (Instr.setParam n v)) (ofNat_ofBe_be 3 v (by decide))
  | setOutletField o f v =>
    cases h
    cases v with
    | short v => exact congrArg (fun v => some (Instr.setOutletField o f (.short v))) (ofNat_ofBe_be 3 v (by decide))
    | mask m => exact congrArg (fun m => some (Instr.setOutletField o f (.mask m))) (ofNat_ofBe_be 8 m (by decide))
  | putClass c w h' a ah =>
    cases h
    exact congrArg₂ (fun h ah => some (Instr.putClass c w h a ah)) (ofNat_ofBe_be 2 h' (by decide)) (ofNat_ofBe_be 2 ah (by decide))
  | putRoute i k f ch => cases h; exact congrArg (fun f => some (Instr.putRoute i k f ch)) (ofNat_ofBe_be 2 f (by decide))
  | findTrack t => cases h; exact congrArg (fun t => some (Instr.findTrack t)) (ofNat_ofBe_be 2 t (by decide))
  | nextTrack t =>
    cases h
    cases t with
    | none => rfl
    | some t => exact congrArg (fun t => some (Instr.nextTrack (some t))) (ofNat_ofBe_be 2 t (by decide))
  | withdrawTrack t => cases h; exact congrArg (fun t => some (Instr.withdrawTrack t)) (ofNat_ofBe_be 2 t (by decide))
  | findAt d => cases h; exact congrArg (fun d => some (Instr.findAt d)) (ofNat_ofBe_be 3 d (by decide))
  | amendTrack t s c k => cases h; exact congrArg (fun t => some (Instr.amendTrack t s c k)) (ofNat_ofBe_be 2 t (by decide))
  | _ => cases h; rfl

theorem portFrame_of_code {c : Instr} {code : Byte} (h : requestCode c = some code) :
    portFrame c = code :: BitVec.ofNat 8 (requestArgs c).length :: requestArgs c ++ [crc8 (code :: BitVec.ofNat 8 (requestArgs c).length :: requestArgs c)] := by
  unfold portFrame
  rw [h]

theorem judgePortFrame_portFrame {c : Instr} {code : Byte} (h : requestCode c = some code) : judgePortFrame (portFrame c) 0 = .request c := by
  have hlen := requestArgs_length c
  have hbyte : (BitVec.ofNat 8 (requestArgs c).length).toNat = (requestArgs c).length := Nat.mod_eq_of_lt (by omega)
  rw [portFrame_of_code h, judgePortFrame_formed hbyte (by omega) rfl, if_neg (by simp [(requestCode_known h).1]), decodeRequest_args h]

/-- Settles O42: the frame of a request is in form and read back, and carried out as the request is. -/
theorem requestFramesRoundTrip : Obligations.RequestFramesRoundTrip := by
  intro c hc
  obtain ⟨code, hcode⟩ := Option.ne_none_iff_exists'.mp hc
  have hjudge := judgePortFrame_portFrame hcode
  refine ⟨hjudge, fun s => ?_⟩
  have hframe := portFrame_of_code hcode
  obtain ⟨-, hread⟩ := requestCode_known hcode
  cases hhold : s.sp.resetHold with
  | true => rw [exec_held hc hhold, exec_badPortFrame_held hhold]
  | false =>
    rw [exec_badPortFrame_request hhold (by rw [hframe]; exact fun e => hread (Option.some.inj e)) (by rw [hframe]; exact List.cons_ne_nil _ _), hjudge, ← (exec_request hc).2]

end Sys2Proof.Machine
end


section
/-! PROOFS. The acceptance test in the terms of the statements; and whole clusters: records replaced together, given back, carried and walked, each by one equation. -/

namespace Sys2Proof.Machine

/-! ### The acceptance test -/

theorem foldl_max_spec {α : Type} (f : α → Nat) (l : List α) (a : Nat) :
    (∀ r ∈ l, f r ≤ l.foldl (fun acc r => max acc (f r)) a) ∧ a ≤ l.foldl (fun acc r => max acc (f r)) a
      ∧ (l.foldl (fun acc r => max acc (f r)) a = a ∨ ∃ r ∈ l, l.foldl (fun acc r => max acc (f r)) a = f r) := by
  induction l generalizing a with
  | nil => simp
  | cons x rest ih =>
    obtain ⟨hall, hstart, hmax⟩ := ih (max a (f x))
    rw [List.foldl_cons]
    refine ⟨fun r hr => ?_, by omega, ?_⟩
    · obtain rfl | hr := List.mem_cons.mp hr
      · omega
      · exact hall r hr
    · obtain h | ⟨r, hr, h⟩ := hmax
      · by_cases hx : f x ≤ a
        · exact .inl (by omega)
        · exact .inr ⟨x, List.mem_cons_self, by omega⟩
      · exact .inr ⟨r, List.mem_cons_of_mem x hr, h⟩

/-- The span is the largest of the members' distances (R72). -/
theorem span_eq {s0 : Pos} {ms : List Record} {sp : Nat} (hle : ∀ r ∈ ms, ahead (plus r.stamp r.length) s0 ≤ sp)
    (hmax : sp = 0 ∨ ∃ r ∈ ms, ahead (plus r.stamp r.length) s0 = sp) : span s0 ms = sp := by
  obtain ⟨hall, -, hat⟩ := foldl_max_spec (fun r => ahead (plus r.stamp r.length) s0) ms 0
  unfold span
  refine Nat.le_antisymm ?_ ?_
  · obtain h | ⟨r, hr, h⟩ := hat
    · rw [h]
      exact Nat.zero_le _
    · rw [h]
      exact hle r hr
  · obtain rfl | ⟨r, hr, h⟩ := hmax
    · exact Nat.zero_le _
    · rw [← h]
      exact hall r hr

theorem Outlet.notOpen_iff (x : Outlet) : x.notOpen = true ↔ x.enabled = false ∨ x.rack ≠ .opened ∨ x.blocked = true ∨ x.paddle = .faulted := by
  simp [Outlet.notOpen, or_assoc]

theorem Outlet.takesKey_iff (x : Outlet) (r : KeyNo) : x.takesKey r = false ↔ ∀ k, x.rackKey = some k → r ≠ k ∧ r ≠ 0 ∧ k ≠ 0 := by
  unfold Outlet.takesKey compatible
  cases x.rackKey with
  | none => simp
  | some k => simp [and_assoc]

theorem State.spaced_iff (s : State) (o : OutletNo) (f : Pos) :
    s.spaced o f = false ↔ ∃ l, (s.outlet o).latest = some l ∧ min (f - l.point).toNat (l.point - f).toNat < s.cycleDistance o := by
  unfold State.spaced
  cases (s.outlet o).latest with
  | none => simp
  | some l =>
    simp only [decide_eq_false_iff_not, Nat.not_le, Option.some.injEq, exists_eq_left']
    rfl

theorem firePoint_late_iff (f p : Pos) (n : Nat) : (!atOrBeyond f p || decide (ahead f p < n)) = true ↔ 8388608 ≤ (f - p).toNat ∨ (f - p).toNat < n := by
  simp only [Bool.or_eq_true, Bool.not_eq_true', decide_eq_true_eq, atOrBeyond, decide_eq_false_iff_not, Nat.not_lt]
  rfl

/-- A position is the number it stands for, taken modulo the position range. -/
theorem eq_ofInt_of_toNat {f : Pos} {n : Int} (h : (f.toNat : Int) = n % 16777216) : f = BitVec.ofInt 24 n := by
  apply BitVec.eq_of_toInt_eq
  rw [BitVec.toInt_ofInt, BitVec.toInt_eq_toNat_bmod, h]
  exact Int.emod_bmod n (2 ^ 24)

/-- Settles O20: each condition of the model's test in the statement's terms, in one order. -/
theorem acceptanceTestGivesTheFirstFailure : Obligations.AcceptanceTestGivesTheFirstFailure := by
  intro s o s0 ms sp lead cycle f hle hmax hdist hf
  have hspan := span_eq hle hmax
  have hlead : s.lead o = lead := (hdist _ _ (.inl ⟨rfl, rfl⟩)).symm
  have hcycle : s.cycleDistance o = cycle := (hdist _ _ (.inr ⟨rfl, rfl⟩)).symm
  have hpoint : s.firePoint o s0 ms = f := by
    unfold State.firePoint centre
    rw [hspan, hlead]
    exact (eq_ofInt_of_toNat hf).symm
  unfold State.accept
  dsimp only
  simp only [hpoint, hspan, Outlet.notOpen_iff, List.any_eq_true, Bool.not_eq_true', Outlet.takesKey_iff, firePoint_late_iff, State.spaced_iff, hcycle]
  rfl

end Sys2Proof.Machine
end


section
/-! PROOFS. Whole clusters: records replaced together, units given back together, and clusters carried and taken back, each by one equation. -/

namespace Sys2Proof.Machine

/-! ### Records replaced together -/

theorem State.tableLaw_of_tags {s t : State} (h : t.tc.records.map Record.tag = s.tc.records.map Record.tag) (hs : s.tableLaw) : t.tableLaw := by
  have hslots : ∀ rs : List Record, rs.map (fun r => r.slot) = (rs.map Record.tag).map Tag.slot := fun rs => by rw [List.map_map]; rfl
  unfold State.tableLaw
  rw [hslots, h, ← hslots]
  exact hs

theorem State.withEach_tags {s : State} {ms : List Record} {f : Record → Record} (hf : ∀ q, (f q).tag = q.tag) :
    (s.withEach ms f).tc.records.map Record.tag = s.tc.records.map Record.tag := by
  simp only [State.withEach, List.map_map]
  refine List.map_congr_left fun q _ => ?_
  simp only [Function.comp]
  split
  · exact hf q
  · rfl

theorem State.withEach_tableLaw {s : State} (hs : s.tableLaw) {ms : List Record} {f : Record → Record} (hf : ∀ q, (f q).tag = q.tag) : (s.withEach ms f).tableLaw :=
  State.tableLaw_of_tags (State.withEach_tags hf) hs

theorem State.withEach_congr {s : State} {ms ns : List Record} {f g : Record → Record} (ht : ms.map Record.tag = ns.map Record.tag)
    (h : ∀ q ∈ s.tc.records, q.tag ∈ ms.map Record.tag → f q = g q) : s.withEach ms f = s.withEach ns g := by
  refine congrArg s.setRecords (List.map_congr_left fun q hq => ?_)
  rw [← ht]
  split
  · next hm => exact h q hq hm
  · rfl

theorem State.mem_tags_iff {s : State} (hs : s.tableLaw) {ms : List Record} (hms : ∀ r ∈ ms, r ∈ s.tc.records) {q : Record} (hq : q ∈ s.tc.records) :
    q.tag ∈ ms.map Record.tag ↔ q ∈ ms := by
  refine ⟨fun h => ?_, List.mem_map_of_mem⟩
  obtain ⟨r, hr, e⟩ := List.mem_map.mp h
  rw [State.eq_of_tag hs (hms r hr) hq e.symm]
  exact hr

theorem State.mem_membersOf {s : State} {t : Tag} {r : Record} : r ∈ s.membersOf t ↔ r ∈ s.tc.records ∧ r.leaderTag = t := by
  simp [State.membersOf]

theorem State.mem_membersOf_tags {s : State} (hs : s.tableLaw) {t : Tag} {q : Record} (hq : q ∈ s.tc.records) :
    q.tag ∈ (s.membersOf t).map Record.tag ↔ q.leaderTag = t := by
  rw [State.mem_tags_iff hs (fun r hr => (State.mem_membersOf.mp hr).1) hq, State.mem_membersOf]
  exact and_iff_right hq

/-- A cluster whose tags are its members' alone, each once, as all are in a table that meets the law (R23). -/
structure State.OwnTags (s : State) (t : Tag) : Prop where
  nodup : ((s.membersOf t).map Record.tag).Nodup
  own : ∀ q ∈ s.tc.records, q.tag ∈ (s.membersOf t).map Record.tag → q.leaderTag = t

theorem State.ownTags {s : State} (hs : s.tableLaw) (t : Tag) : s.OwnTags t :=
  ⟨(State.tags_nodup hs).sublist (List.filter_sublist.map _), fun _ hq => (State.mem_membersOf_tags hs hq).mp⟩

/-- The live record of a member's tag is that member. -/
theorem State.OwnTags.eq_of_tag {s : State} {t : Tag} (h : s.OwnTags t) {r q : Record} (hr : r ∈ s.membersOf t) (hq : q ∈ s.tc.records) (e : q.tag = r.tag) : q = r :=
  List.inj_on_of_nodup_map h.nodup (State.mem_membersOf.mpr ⟨hq, h.own q hq (e ▸ List.mem_map_of_mem hr)⟩) hr e

theorem State.membersOf_of_map {s v : State} {f : Record → Record} (h : v.tc.records = s.tc.records.map f) (hf : ∀ q, (f q).leaderTag = q.leaderTag) (t : Tag) :
    v.membersOf t = (s.membersOf t).map f := by
  unfold State.membersOf
  rw [h, List.filter_map]
  refine congrArg (List.map f) (List.filter_congr fun q _ => ?_)
  simp only [Function.comp, hf]

theorem State.OwnTags.of_map {s v : State} {t : Tag} (h : s.OwnTags t) {f : Record → Record} (hv : v.tc.records = s.tc.records.map f) (htag : ∀ q, (f q).tag = q.tag)
    (hlead : ∀ q, (f q).leaderTag = q.leaderTag) : v.OwnTags t := by
  have htags : (v.membersOf t).map Record.tag = (s.membersOf t).map Record.tag := by
    rw [State.membersOf_of_map hv hlead, List.map_map]
    exact List.map_congr_left fun q _ => htag q
  refine ⟨htags ▸ h.nodup, fun q' hq' hin => ?_⟩
  rw [htags] at hin
  rw [hv] at hq'
  obtain ⟨q, hq, rfl⟩ := List.mem_map.mp hq'
  rw [htag] at hin
  rw [hlead]
  exact h.own q hq hin

/-- The records that a leader's tag picks are its members. -/
theorem State.mapRecords_leader {s : State} {t : Tag} (hs : s.OwnTags t) (f : Record → Record) :
    s.mapRecords (fun r => r.leaderTag == t) f = s.withEach (s.membersOf t) f := by
  refine congrArg s.setRecords (List.map_congr_left fun q hq => ?_)
  have hiff : q.leaderTag = t ↔ q.tag ∈ (s.membersOf t).map Record.tag := ⟨fun h => List.mem_map_of_mem (State.mem_membersOf.mpr ⟨hq, h⟩), hs.own q hq⟩
  simp only [beq_iff_eq, hiff]

/-- The record that a tag picks is the one of that tag. -/
theorem State.mapRecords_tag (s : State) (r : Record) (f : Record → Record) : s.mapRecords (fun x => x.tag == r.tag) f = s.withEach [r] f := by
  unfold State.mapRecords State.setRecords State.withEach
  simp only [List.map_cons, List.map_nil, List.mem_singleton, beq_iff_eq]

theorem State.withEach_single {s : State} (hs : s.tableLaw) {r : Record} (hr : r ∈ s.tc.records) (f : Record → Record) : s.withEach [r] f = s.withRecord r.tag (f r) := by
  refine congrArg s.setRecords (List.map_congr_left fun q hq => ?_)
  simp only [List.map_cons, List.map_nil, List.mem_singleton]
  split
  · next h => rw [State.eq_of_tag hs hr hq h]
  · rfl

theorem State.withEach_withEach {s : State} {ms ns : List Record} {f g : Record → Record} (ht : ns.map Record.tag = ms.map Record.tag) (hf : ∀ q, (f q).tag = q.tag) :
    (s.withEach ms f).withEach ns g = s.withEach ms (fun q => g (f q)) := by
  refine congrArg s.setRecords ?_
  rw [ht]
  refine List.map_map.trans (List.map_congr_left fun q _ => ?_)
  simp only [Function.comp]
  by_cases h : q.tag ∈ ms.map Record.tag
  · rw [if_pos h, if_pos h, hf, if_pos h]
  · rw [if_neg h, if_neg h, if_neg h]

/-- A cluster replaced record by record. -/
theorem State.withEach_cons {s : State} {r : Record} {rest : List Record} {f : Record → Record} (hf : ∀ q, (f q).tag = q.tag) (hr : r.tag ∉ rest.map Record.tag) :
    (s.withEach [r] f).withEach rest f = s.withEach (r :: rest) f := by
  refine congrArg s.setRecords (List.map_map.trans (List.map_congr_left fun q _ => ?_))
  simp only [Function.comp, List.map_cons, List.map_nil, List.mem_cons, List.not_mem_nil, or_false]
  by_cases h : q.tag = r.tag
  · rw [if_pos h, hf, if_neg (by rw [h]; exact hr), if_pos (.inl h)]
  · rw [if_neg h]
    simp only [h, false_or]

/-- A live record that is replaced is found as it has become. -/
theorem State.find_withEach {s : State} (hs : s.tableLaw) {ms : List Record} {f : Record → Record} (hf : ∀ q, (f q).tag = q.tag) {r : Record} (hr : r ∈ s.tc.records) :
    (s.withEach ms f).find r.tag = some (if r.tag ∈ ms.map Record.tag then f r else r) := by
  have hmem : (if r.tag ∈ ms.map Record.tag then f r else r) ∈ (s.withEach ms f).tc.records := List.mem_map_of_mem hr
  have htag : (if r.tag ∈ ms.map Record.tag then f r else r).tag = r.tag := by
    split
    · exact hf r
    · rfl
  have hfound := State.find_tag (State.withEach_tableLaw hs hf) hmem
  rw [htag] at hfound
  exact hfound

/-! ### Units given back together -/

/-- Units given back (R39, R98). -/
theorem State.release_eq (s : State) (o : OutletNo) (n : Nat) : s.release o n = (s.withOutlet o ((s.outlet o).less n)).withLatches ((s.outlet o).emptiedBy n) := by
  have hc : (s.outlet o).committed - n = 0 ↔ (s.outlet o).committed ≤ n := Nat.sub_eq_zero_iff_le
  unfold State.release Outlet.less Outlet.emptiedBy
  dsimp only
  simp only [hc]
  split
  · rfl
  · rw [State.withLatches_zero]
    rfl

theorem Outlet.less_less (x : Outlet) (a b : Nat) : (x.less a).less b = x.less (a + b) := by
  unfold Outlet.less
  simp only [Nat.sub_sub, Outlet.mk.injEq, true_and, and_true]
  by_cases hr : x.rack = .closing
  · by_cases ha : x.committed ≤ a
    · simp [hr, ha, show x.committed ≤ a + b by omega]
    · simp [hr, ha, show (x.committed - a ≤ b) = (x.committed ≤ a + b) from propext (by omega)]
  · simp [hr]

theorem Outlet.emptiedBy_less (x : Outlet) (a b : Nat) : x.emptiedBy a ||| (x.less a).emptiedBy b = x.emptiedBy (a + b) := by
  unfold Outlet.less Outlet.emptiedBy
  dsimp only
  by_cases hr : x.rack = .closing
  · by_cases ha : x.committed ≤ a
    · simp [hr, ha, show x.committed ≤ a + b by omega]
    · simp [hr, ha, show (x.committed - a ≤ b) = (x.committed ≤ a + b) from propext (by omega)]
  · simp [hr]

theorem State.withLatches_withLatches (s : State) (a b : BitVec 8) : (s.withLatches a).withLatches b = s.withLatches (a ||| b) := by
  unfold State.withLatches
  dsimp only
  rw [BitVec.or_assoc]

theorem State.release_release (s : State) (o : OutletNo) (a b : Nat) : (s.release o a).release o b = s.release o (a + b) := by
  simp only [State.release_eq]
  have hout : ((s.withOutlet o ((s.outlet o).less a)).withLatches ((s.outlet o).emptiedBy a)).outlet o = (s.outlet o).less a := State.outlet_setOutlet_self _ _ _
  rw [hout, Outlet.less_less, ← Outlet.emptiedBy_less, ← State.withLatches_withLatches]
  have hset := s.setOutlet_setOutlet o ((s.outlet o).less a) ((s.outlet o).less (a + b))
  rw [State.withOutlet_eq s o ((s.outlet o).less (a + b)), ← hset]
  rfl

/-- A record's units given back (R39). -/
theorem State.giveBack_route {s : State} {r : Record} {route : Route} (h : r.route = some route) : s.giveBack r = s.release route.outlet route.units := by
  unfold State.giveBack
  rw [h]

theorem State.giveBack_none {s : State} {r : Record} (h : r.route = none) : s.giveBack r = s := by
  unfold State.giveBack
  rw [h]

/-- The records of a list hold routes at one outlet. -/
def RoutedAt (o : OutletNo) (ms : List Record) : Prop := ∀ r ∈ ms, ∃ route, r.route = some route ∧ route.outlet = o

theorem State.foldl_giveBack_none {ms : List Record} (h : ∀ r ∈ ms, r.route = none) (s : State) : ms.foldl State.giveBack s = s := by
  induction ms generalizing s with
  | nil => rfl
  | cons r rest ih =>
    rw [List.foldl_cons, State.giveBack_none (h r List.mem_cons_self)]
    exact ih (fun q hq => h q (List.mem_cons_of_mem r hq)) s

/-- A cluster's units given back one record after another are given back at once (R39). -/
theorem State.foldl_giveBack_at {o : OutletNo} {r : Record} {rest : List Record} (h : RoutedAt o (r :: rest)) (s : State) :
    (r :: rest).foldl State.giveBack s = s.release o (routeUnits (r :: rest)) := by
  induction rest generalizing r s with
  | nil =>
    obtain ⟨route, hr, rfl⟩ := h r List.mem_cons_self
    rw [List.foldl_cons, State.giveBack_route hr]
    simp [routeUnits, hr]
  | cons q rest ih =>
    obtain ⟨route, hr, ho⟩ := h r List.mem_cons_self
    rw [List.foldl_cons, ih (fun x hx => h x (List.mem_cons_of_mem r hx)), State.giveBack_route hr, ho, State.release_release]
    congr 1
    simp [routeUnits, hr]

/-! ### A cluster off its outlet's books -/

theorem Outlet.cancelRequest_eq (x : Outlet) (t : Tag) : x.cancelRequest t = { x with request := if t ∈ x.requestMembers then none else x.request } := by
  unfold Outlet.cancelRequest Outlet.requestMembers
  cases hrequest : x.request with
  | none => simp [← hrequest]
  | some request =>
    cases request with
    | test => simp [← hrequest]
    | deadline ms late units =>
      dsimp only
      by_cases h : t ∈ ms
      · rw [if_pos h, if_pos h]
      · rw [if_neg h, if_neg h, ← hrequest]

theorem Outlet.clearLatest_eq (x : Outlet) (t : Tag) : x.clearLatest t = { x with latest := if ∃ l, x.latest = some l ∧ l.owner = t then none else x.latest } := by
  unfold Outlet.clearLatest
  cases h : x.latest with
  | none => simp [← h]
  | some l =>
    simp only [Option.map_some, Option.some.injEq, exists_eq_left']
    split
    · rfl
    · rw [← h]

/-- A cluster's latest fire point, request and units, all off the outlet (R39, R77, R81, R121). -/
theorem Outlet.detached_less (x : Outlet) (t : Tag) (n : Nat) : ((x.clearLatest t).cancelRequest t).less n = x.without t n := by
  rw [Outlet.clearLatest_eq, Outlet.cancelRequest_eq]
  rfl

theorem Outlet.detached_emptiedBy (x : Outlet) (t : Tag) (n : Nat) : ((x.clearLatest t).cancelRequest t).emptiedBy n = x.emptiedBy n := by
  rw [Outlet.clearLatest_eq, Outlet.cancelRequest_eq]
  rfl

/-- A ROUTED or DUE cluster with its members, all at one outlet. -/
structure State.BookedAt (s : State) (o : OutletNo) (t : Tag) (ms : List Record) : Prop where
  members : s.membersOf t = ms
  nonempty : ms ≠ []
  routed : RoutedAt o ms
  waits : ∀ r ∈ ms, r.state = .routed ∨ r.state = .due

theorem State.detach_booked {s : State} {o : OutletNo} {t : Tag} {ms : List Record} (h : s.BookedAt o t ms) :
    s.detach t = s.modOutlet o (fun x => (x.clearLatest t).cancelRequest t) := by
  unfold State.detach
  rw [h.members]
  cases hms : ms with
  | nil => exact absurd hms h.nonempty
  | cons r rest =>
    have hr : r ∈ ms := hms ▸ List.mem_cons_self
    obtain ⟨route, hroute, rfl⟩ := h.routed r hr
    dsimp only
    rw [hroute]
    exact if_pos (h.waits r hr)

theorem State.detach_free {s : State} {t : Tag} (h : ∀ r ∈ s.membersOf t, r.route = none) : s.detach t = s := by
  unfold State.detach
  split
  · rfl
  · next r rest hms => rw [h r (by rw [hms]; exact List.mem_cons_self)]

/-- A booked cluster off the books, its units with it. -/
theorem State.unbook_eq {s : State} {o : OutletNo} {t : Tag} {ms : List Record} (h : s.BookedAt o t ms) :
    ms.foldl State.giveBack (s.detach t) = (s.withOutlet o ((s.outlet o).without t (routeUnits ms))).withLatches ((s.outlet o).emptiedBy (routeUnits ms)) := by
  rw [State.detach_booked h]
  obtain ⟨r, rest, hms⟩ := List.exists_cons_of_ne_nil h.nonempty
  have hrouted := h.routed
  rw [hms] at hrouted ⊢
  rw [State.foldl_giveBack_at hrouted, State.release_eq, State.outlet_modOutlet_self, Outlet.detached_less, Outlet.detached_emptiedBy]
  rw [State.modOutlet_eq, State.withOutlet_eq, State.withOutlet_eq, State.withOutlet_eq, State.setOutlet_setOutlet]

/-! ### Carrying together -/

theorem State.ride_tag (s : State) (why : CarryReason) (q : Record) : (s.ride why q).tag = q.tag := rfl

theorem State.giveBack_withEach (s : State) (ms : List Record) (f : Record → Record) (r : Record) : (s.withEach ms f).giveBack r = (s.giveBack r).withEach ms f := by
  unfold State.giveBack
  cases r.route with
  | none => rfl
  | some route =>
    dsimp only
    rw [State.release_eq, State.release_eq]
    rfl

theorem State.foldl_giveBack_withEach (ns ms : List Record) (s : State) (f : Record → Record) :
    ns.foldl State.giveBack (s.withEach ms f) = (ns.foldl State.giveBack s).withEach ms f := by
  induction ns generalizing s with
  | nil => rfl
  | cons r rest ih => rw [List.foldl_cons, List.foldl_cons, State.giveBack_withEach, ih]

/-- A live record that no cluster field ties leaves the table (R40). -/
theorem State.retire_unlinked {s : State} (hs : s.tableLaw) {r : Record} (hr : r ∈ s.tc.records) (hc : r.cluster = none) (c : RetireOutcome) :
    s.retire c r.tag = (({ s with tc := { records := s.tc.records.filter (fun x => x.tag != r.tag), gens := vset s.tc.gens r.slot (vget s.tc.gens r.slot + 1) } } : State).countKey
      r.key c.count).drainCheck := by
  unfold State.retire
  rw [State.find_tag hs hr]
  dsimp only
  unfold State.leaveCluster
  rw [hc]

theorem State.drainCheck_giveBack (s : State) (r : Record) : s.drainCheck.giveBack r = (s.giveBack r).drainCheck := by
  unfold State.giveBack
  cases r.route with
  | none => rfl
  | some route =>
    dsimp only
    rw [State.release_eq, State.release_eq]
    unfold State.drainCheck
    split
    · next h => exact (if_pos h).symm
    · next h => exact (if_neg h).symm

theorem State.retire_giveBack {s : State} (hs : s.tableLaw) {r : Record} (hr : r ∈ s.tc.records) (hc : r.cluster = none) (c : RetireOutcome) (q : Record) :
    (s.retire c r.tag).giveBack q = (s.giveBack q).retire c r.tag := by
  have htc := s.giveBack_tc q
  rw [State.retire_unlinked hs hr hc, State.retire_unlinked (s := s.giveBack q) (by rw [State.tableLaw, htc]; exact hs) (by rw [htc]; exact hr) hc, State.drainCheck_giveBack, htc]
  congr 1
  unfold State.giveBack
  cases q.route with
  | none => rfl
  | some route =>
    dsimp only
    rw [State.release_eq, State.release_eq]
    rfl

theorem State.foldl_giveBack_tableLaw {s : State} (hs : s.tableLaw) (ms : List Record) : (ms.foldl State.giveBack s).tableLaw := by
  rw [State.tableLaw, State.foldl_giveBack_tc]
  exact hs

theorem State.foldl_giveBack_retire {s : State} (hs : s.tableLaw) {r : Record} (hr : r ∈ s.tc.records) (hc : r.cluster = none) {c : RetireOutcome} (ms : List Record) :
    ms.foldl State.giveBack (s.retire c r.tag) = (ms.foldl State.giveBack s).retire c r.tag := by
  induction ms generalizing s with
  | nil => rfl
  | cons q rest ih =>
    rw [List.foldl_cons, List.foldl_cons, State.retire_giveBack hs hr hc]
    refine ih (State.foldl_giveBack_tableLaw hs [q]) ?_
    rw [State.giveBack_tc]
    exact hr

theorem State.drainCheck_withEach (s : State) (ms : List Record) (f : Record → Record) : s.drainCheck.withEach ms f = (s.withEach ms f).drainCheck := by
  unfold State.drainCheck
  have hnil : (s.withEach ms f).tc.records = [] ↔ s.tc.records = [] := List.map_eq_nil_iff
  by_cases h : s.service = .draining ∧ s.tc.records = []
  · rw [if_pos h, if_pos ⟨h.1, hnil.mpr h.2⟩]
    rfl
  · rw [if_neg h, if_neg fun k => h ⟨k.1, hnil.mp k.2⟩]

theorem State.retire_withEach {s : State} (hs : s.tableLaw) {r : Record} (hr : r ∈ s.tc.records) (hc : r.cluster = none) (c : RetireOutcome) {ms : List Record} {f : Record → Record}
    (hf : ∀ q, (f q).tag = q.tag) (hm : r.tag ∉ ms.map Record.tag) : (s.retire c r.tag).withEach ms f = (s.withEach ms f).retire c r.tag := by
  have hr' : r ∈ (s.withEach ms f).tc.records := by
    refine List.mem_map.mpr ⟨r, hr, if_neg hm⟩
  rw [State.retire_unlinked hs hr hc, State.retire_unlinked (State.withEach_tableLaw hs hf) hr' hc, State.drainCheck_withEach]
  congr 1
  unfold State.withEach State.countKey
  dsimp only
  congr 2
  rw [List.filter_map]
  congr 1
  refine List.filter_congr fun q _ => ?_
  simp only [Function.comp]
  split
  · rw [hf]
  · rfl

/-- The records of these tags carried one after another. -/
def State.carryAll (s : State) (why : CarryReason) (ts : List Tag) : State := ts.foldl (fun s t => s.carryRecord why t) s

theorem State.carryRecord_found {s : State} (hs : s.tableLaw) {r : Record} (hr : r ∈ s.tc.records) (why : CarryReason) :
    s.carryRecord why r.tag = if atOrBeyond s.bpu.position (s.endPoint r) = true then ((s.giveBack r).withEach [r] (s.ride why)).retire .ended r.tag
      else (s.giveBack r).withEach [r] (s.ride why) := by
  have htc := s.giveBack_tc r
  have hride : (s.giveBack r).mapRecords (fun x => x.tag == r.tag) (Record.carried why (s.endPoint r)) = (s.giveBack r).withEach [r] (s.ride why) := by
    rw [State.mapRecords_tag]
    refine State.withEach_congr rfl fun q hq hm => ?_
    rw [htc] at hq
    simp only [List.map_cons, List.map_nil, List.mem_singleton] at hm
    rw [State.eq_of_tag hs hr hq hm]
    rfl
  unfold State.carryRecord
  rw [State.find_tag hs hr]
  dsimp only
  rw [hride]

theorem State.giveBack_bpu (s : State) (r : Record) : (s.giveBack r).bpu = s.bpu := by
  unfold State.giveBack
  cases r.route with
  | none => rfl
  | some route => dsimp only; rw [State.release_eq]; rfl

theorem State.giveBack_params (s : State) (r : Record) : (s.giveBack r).params = s.params := by
  unfold State.giveBack
  cases r.route with
  | none => rfl
  | some route => dsimp only; rw [State.release_eq]; rfl

/-- Two states with one position and one D_END have the same end points. -/
theorem State.ride_congr {s t : State} (h : t.params = s.params) (why : CarryReason) : t.ride why = s.ride why := by
  funext q
  unfold State.ride State.endPoint
  rw [h]

theorem State.retire_bpu_params (s : State) (c : RetireOutcome) (t : Tag) : (s.retire c t).bpu = s.bpu ∧ (s.retire c t).params = s.params :=
  ⟨(Work.retire s c t).bpu, (Work.retire s c t).params⟩

/-- Live records carried one after another: all their units are given back and all ride, and then those whose end points are reached are retired (R39, R41). -/
theorem State.carryAll_eq {s : State} (hs : s.tableLaw) {ms : List Record} (hms : ∀ r ∈ ms, r ∈ s.tc.records) (hn : (ms.map Record.tag).Nodup) (why : CarryReason) :
    s.carryAll why (ms.map Record.tag) = ((ms.foldl State.giveBack s).withEach ms (s.ride why)).retireAll .ended (s.endedOf ms) := by
  induction ms generalizing s with
  | nil =>
    have hsame : s.withEach [] (s.ride why) = s := by
      unfold State.withEach
      simp
    exact hsame.symm
  | cons r rest ih =>
    have hr := hms r List.mem_cons_self
    rw [List.map_cons, List.nodup_cons] at hn
    obtain ⟨hnot, hrest⟩ := hn
    -- the first record as it rides
    let u := (s.giveBack r).withEach [r] (s.ride why)
    have hus : u.tableLaw := State.withEach_tableLaw (State.foldl_giveBack_tableLaw hs [r]) fun _ => rfl
    have hru : s.ride why r ∈ u.tc.records := by
      refine List.mem_map.mpr ⟨r, ?_, if_pos (List.mem_singleton.mpr rfl)⟩
      rw [State.giveBack_tc]
      exact hr
    have hrestu : ∀ q ∈ rest, q ∈ u.tc.records := fun q hq => by
      refine List.mem_map.mpr ⟨q, ?_, if_neg ?_⟩
      · rw [State.giveBack_tc]
        exact hms q (List.mem_cons_of_mem r hq)
      · rw [List.map_cons, List.map_nil, List.mem_singleton]
        exact fun e => hnot (e ▸ List.mem_map_of_mem hq)
    have hbpu : u.bpu = s.bpu := s.giveBack_bpu r
    have hparams : u.params = s.params := s.giveBack_params r
    have hall : (rest.foldl State.giveBack u).withEach rest (s.ride why) = ((r :: rest).foldl State.giveBack s).withEach (r :: rest) (s.ride why) := by
      rw [State.foldl_giveBack_withEach, State.withEach_cons (f := s.ride why) (fun _ => rfl) hnot, List.foldl_cons]
    rw [List.map_cons]
    show (s.carryRecord why r.tag).carryAll why (rest.map Record.tag) = _
    rw [State.carryRecord_found hs hr]
    by_cases hend : atOrBeyond s.bpu.position (s.endPoint r) = true
    · have hended : s.endedOf (r :: rest) = r.tag :: s.endedOf rest := by
        unfold State.endedOf
        rw [List.filter_cons_of_pos (by exact hend), List.map_cons]
      have htag : (s.ride why r).tag = r.tag := rfl
      obtain ⟨hvbpu, hvparams⟩ := u.retire_bpu_params .ended r.tag
      have hv : (u.retire .ended r.tag).tc.records = u.tc.records.filter (fun x => x.tag != r.tag) :=
        State.retire_records fun q hq e => by rw [State.eq_of_tag hus hru hq (e.trans htag.symm)]; rfl
      have hvs : (u.retire .ended r.tag).tableLaw := by
        unfold State.tableLaw
        rw [hv]
        exact hus.sublist (List.filter_sublist.map _)
      have hrestv : ∀ q ∈ rest, q ∈ (u.retire .ended r.tag).tc.records := fun q hq => by
        rw [hv, List.mem_filter, bne_iff_ne]
        exact ⟨hrestu q hq, fun e => hnot (e ▸ List.mem_map_of_mem hq)⟩
      have hsame : (u.retire .ended r.tag).endedOf rest = s.endedOf rest := by
        unfold State.endedOf State.endPoint
        rw [hvbpu, hvparams, hbpu, hparams]
      have hrur : s.ride why r ∈ (rest.foldl State.giveBack u).tc.records := by
        rw [State.foldl_giveBack_tc]
        exact hru
      rw [if_pos hend, hended, ih hvs hrestv hrest, State.ride_congr (hvparams.trans hparams), hsame]
      change (State.withEach (rest.foldl State.giveBack (u.retire .ended (s.ride why r).tag)) rest (s.ride why)).retireAll .ended (s.endedOf rest) = _
      rw [State.foldl_giveBack_retire hus hru rfl, State.retire_withEach (f := s.ride why) (State.foldl_giveBack_tableLaw hus rest) hrur rfl .ended (fun _ => rfl) hnot, hall]
      rfl
    · have hended : s.endedOf (r :: rest) = s.endedOf rest := by
        unfold State.endedOf
        rw [List.filter_cons_of_neg (by simpa using hend)]
      have hsame : u.endedOf rest = s.endedOf rest := by
        unfold State.endedOf State.endPoint
        rw [hbpu, hparams]
      rw [if_neg hend, hended, ih hus hrestu hrest, State.ride_congr hparams, hall, hsame]

/-- Records without routes, alone under their tags and with their end points ahead, carried. -/
theorem State.carryAll_free {why : CarryReason} : ∀ {ms : List Record} {s : State}, (∀ r ∈ ms, r ∈ s.tc.records) → (∀ r ∈ ms, ∀ q ∈ s.tc.records, q.tag = r.tag → q = r) →
    (ms.map Record.tag).Nodup → (∀ r ∈ ms, r.route = none) → s.endsAhead s.bpu.position ms → s.carryAll why (ms.map Record.tag) = s.withEach ms (s.ride why)
  | [], s, _, _, _, _, _ => by
    have hsame : s.withEach [] (s.ride why) = s := by
      unfold State.withEach
      simp
    exact hsame.symm
  | r :: rest, s, hms, hone, hn, hfree, hahead => by
    rw [List.map_cons, List.nodup_cons] at hn
    obtain ⟨hnot, hrest⟩ := hn
    have hr := hms r List.mem_cons_self
    have hstep : s.carryRecord why r.tag = s.withEach [r] (s.ride why) := by
      unfold State.carryRecord
      rw [State.find_one hr (hone r List.mem_cons_self)]
      dsimp only
      rw [hahead r List.mem_cons_self, if_neg Bool.false_ne_true, State.giveBack_none (hfree r List.mem_cons_self), State.mapRecords_tag]
      refine State.withEach_congr rfl fun q hq hm => ?_
      rw [hone r List.mem_cons_self q hq (by simpa using hm)]
      rfl
    have hout : ∀ q : Record, q.tag ≠ r.tag → (if q.tag ∈ [r].map Record.tag then s.ride why q else q) = q := fun q hne => if_neg (by simpa using hne)
    have hne : ∀ q ∈ rest, q.tag ≠ r.tag := fun q hq e => hnot (e ▸ List.mem_map_of_mem hq)
    show (s.carryRecord why r.tag).carryAll why (rest.map Record.tag) = _
    rw [hstep, State.carryAll_free (s := s.withEach [r] (s.ride why)) (fun q hq => ?_) (fun q hq x' hx' e => ?_) hrest (fun q hq => hfree q (List.mem_cons_of_mem r hq))
      (fun q hq => hahead q (List.mem_cons_of_mem r hq))]
    · exact State.withEach_cons (f := s.ride why) (fun _ => rfl) hnot
    · exact List.mem_map.mpr ⟨q, hms q (List.mem_cons_of_mem r hq), hout q (hne q hq)⟩
    · obtain ⟨x, hx, rfl⟩ := List.mem_map.mp hx'
      have htag : (if x.tag ∈ [r].map Record.tag then s.ride why x else x).tag = x.tag := by split <;> rfl
      rw [htag] at e
      rw [hout x (e ▸ hne q hq)]
      exact hone q (List.mem_cons_of_mem r hq) x hx e

end Sys2Proof.Machine
end

section
/-! PROOFS. A cluster carried, taken back from its outlet and walked, in the terms of the statements. -/

namespace Sys2Proof.Machine

/-! ### A cluster carried or taken back -/

theorem State.membersOf_nodup {s : State} (hs : s.tableLaw) (t : Tag) : ((s.membersOf t).map Record.tag).Nodup :=
  (State.tags_nodup hs).sublist (List.filter_sublist.map _)

/-- With every end point ahead, no record ends as it is carried (R41). -/
theorem State.endedOf_ahead {s : State} {ms : List Record} (h : s.endsAhead s.bpu.position ms) : s.endedOf ms = [] := by
  have hnone : ms.filter (fun q => atOrBeyond s.bpu.position (s.endPoint q)) = [] := List.filter_eq_nil_iff.mpr fun q hq => by simp [h q hq]
  unfold State.endedOf
  rw [hnone]
  rfl

theorem State.detach_bpu_params (s : State) (t : Tag) : (s.detach t).bpu = s.bpu ∧ (s.detach t).params = s.params :=
  ⟨(Work.detach s t).bpu, (Work.detach s t).params⟩

/-- A cluster CARRIED whose end points are ahead (R39). -/
theorem State.carryCluster_ahead {s : State} (hs : s.tableLaw) (t : Tag) (why : CarryReason) (hahead : s.endsAhead s.bpu.position (s.membersOf t)) :
    s.carryCluster why t = ((s.membersOf t).foldl State.giveBack (s.detach t)).withEach (s.membersOf t) (s.ride why) := by
  obtain ⟨hbpu, hparams⟩ := s.detach_bpu_params t
  have hmem : ∀ r ∈ s.membersOf t, r ∈ (s.detach t).tc.records := fun r hr => by
    rw [State.detach_tc]
    exact (State.mem_membersOf.mp hr).1
  have hends : (s.detach t).endedOf (s.membersOf t) = [] := by
    refine State.endedOf_ahead fun q hq => ?_
    rw [hbpu]
    unfold State.endPoint
    rw [hparams]
    exact hahead q hq
  have hcarry := State.carryAll_eq (s := s.detach t) (by rw [State.tableLaw, State.detach_tc]; exact hs) hmem (State.membersOf_nodup hs t) why
  rw [hends, State.ride_congr hparams] at hcarry
  exact hcarry

/-- A ROUTED or DUE cluster CARRIED off its outlet (R39, R77, R121). -/
theorem State.carryCluster_booked {s : State} (hs : s.tableLaw) {o : OutletNo} {t : Tag} {ms : List Record} (h : s.BookedAt o t ms) (why : CarryReason)
    (hahead : s.endsAhead s.bpu.position ms) :
    s.carryCluster why t
      = ((s.withEach ms (s.ride why)).withOutlet o ((s.outlet o).without t (routeUnits ms))).withLatches ((s.outlet o).emptiedBy (routeUnits ms)) := by
  rw [State.carryCluster_ahead hs t why (by rw [h.members]; exact hahead), h.members, State.unbook_eq h]
  rfl

/-- A cluster without routes CARRIED (R39). -/
theorem State.carryCluster_free {s : State} {t : Tag} (hs : s.OwnTags t) (h : ∀ r ∈ s.membersOf t, r.route = none) (why : CarryReason)
    (hahead : s.endsAhead s.bpu.position (s.membersOf t)) : s.carryCluster why t = s.withEach (s.membersOf t) (s.ride why) := by
  unfold State.carryCluster
  rw [State.detach_free h]
  exact State.carryAll_free (fun r hr => (State.mem_membersOf.mp hr).1) (fun r hr q hq e => hs.eq_of_tag hr hq e) hs.nodup h hahead

/-- A ROUTED or DUE cluster taken back from its outlet (R45, R81). -/
theorem State.withdrawRoute_booked {s : State} (hs : s.tableLaw) {o : OutletNo} {t : Tag} {ms : List Record} (h : s.BookedAt o t ms) (mark : Flags → Flags) :
    s.withdrawRoute t mark
      = ((s.withEach ms (Record.unrouted mark)).withOutlet o ((s.outlet o).without t (routeUnits ms))).withLatches ((s.outlet o).emptiedBy (routeUnits ms)) := by
  unfold State.withdrawRoute
  dsimp only
  rw [h.members, State.unbook_eq h]
  refine (State.mapRecords_leader (s := (s.withOutlet o ((s.outlet o).without t (routeUnits ms))).withLatches ((s.outlet o).emptiedBy (routeUnits ms))) ⟨(State.ownTags hs t).nodup, (State.ownTags hs t).own⟩ _).trans ?_
  exact (congrArg (fun l => State.withEach ((s.withOutlet o ((s.outlet o).without t (routeUnits ms))).withLatches ((s.outlet o).emptiedBy (routeUnits ms))) l
    (Record.unrouted mark)) h.members).trans rfl

/-! ### What a walk reads of its cluster -/

/-- What the acceptance test reads of a record, and its tag. -/
def Record.body (r : Record) : Tag × Pos × Nat × ClassNo × KeyNo := (r.tag, r.stamp, r.length, r.cls, r.key)

theorem tags_of_bodies {ms ns : List Record} (h : ns.map Record.body = ms.map Record.body) : ns.map Record.tag = ms.map Record.tag := by
  have hb : ∀ l : List Record, l.map Record.tag = (l.map Record.body).map Prod.fst := fun l => by rw [List.map_map]; rfl
  rw [hb, hb, h]

theorem State.clusterWeight_of_bodies (s : State) {ms ns : List Record} (h : ns.map Record.body = ms.map Record.body) : s.clusterWeight ns = s.clusterWeight ms := by
  have hb : ∀ l : List Record, s.clusterWeight l = ((l.map Record.body).map (fun b => s.weight b.2.2.2.1)).sum := fun l => by rw [List.map_map]; rfl
  rw [hb, hb, h]

theorem span_of_bodies (s0 : Pos) {ms ns : List Record} (h : ns.map Record.body = ms.map Record.body) : span s0 ns = span s0 ms := by
  have hb : ∀ l : List Record, span s0 l = (l.map Record.body).foldl (fun acc b => max acc (ahead (plus b.2.1 b.2.2.1) s0)) 0 := fun l => by
    rw [List.foldl_map]
    rfl
  rw [hb, hb, h]

/-- The acceptance test reads of its cluster the bodies alone (R68). -/
theorem State.accept_of_bodies (s : State) (o : OutletNo) (s0 : Pos) {ms ns : List Record} (h : ns.map Record.body = ms.map Record.body) :
    s.accept o s0 ns = s.accept o s0 ms := by
  have hcls : ∀ p : ClassNo → Bool, ns.any (fun r => p r.cls) = ms.any (fun r => p r.cls) := fun p => by
    have hb : ∀ l : List Record, l.any (fun r => p r.cls) = (l.map Record.body).any (fun b => p b.2.2.2.1) := fun l => by rw [List.any_map]; rfl
    rw [hb, hb, h]
  have hkey : ∀ p : KeyNo → Bool, ns.any (fun r => p r.key) = ms.any (fun r => p r.key) := fun p => by
    have hb : ∀ l : List Record, l.any (fun r => p r.key) = (l.map Record.body).any (fun b => p b.2.2.2.2) := fun l => by rw [List.any_map]; rfl
    rw [hb, hb, h]
  unfold State.accept State.firePoint
  dsimp only
  rw [hcls (fun c => !(s.outlet o).fields.acceptMask.getLsbD c.val), hkey (fun k => !(s.outlet o).takesKey k), span_of_bodies s0 h, s.clusterWeight_of_bodies h]

theorem State.membersOf_mapRecords_leader (s : State) (t : Tag) {f : Record → Record} (hf : ∀ r, (f r).leaderTag = r.leaderTag) :
    (s.mapRecords (fun r => r.leaderTag == t) f).membersOf t = (s.membersOf t).map f := by
  rw [State.membersOf_mapRecords s _ f hf]
  refine List.map_congr_left fun r hr => if_pos ?_
  rw [(State.mem_membersOf.mp hr).2]
  exact beq_self_eq_true t

/-- A plan check (R66). -/
theorem State.planCheck_eq (s : State) (c : ClassNo) (kind : CheckKind) (entry : RouteIx) :
    s.planCheck c kind entry = { s with
      rd := { s.rd with planStatus := if s.rd.planStatus = none then some { cls := c, entry := entry, kind := kind } else s.rd.planStatus }
      tau := { s.tau with
        latches := s.tau.latches ||| 0x40
        device := { s.tau.device with planChecks := min 16777215 (s.tau.device.planChecks + 1) } } } := by
  unfold State.planCheck
  dsimp only
  split
  · next h =>
    have hnone : s.rd.planStatus = none := h
    rw [if_pos hnone]
    rfl
  · next h =>
    have hsome : s.rd.planStatus ≠ none := fun e => by rw [show s.rd.planStatus = _ from h] at e; cases e
    rw [if_neg hsome]
    rfl

/-! ### A walk in the terms of the statements -/

/-- A walk of a cluster without routes, its end points ahead, does what the statements say of it. -/
theorem State.walkedFrom_walksTo {u : State} {t : Tag} (hu : u.OwnTags t) {lead : Record} {ms : List Record} (ht : lead.tag = t)
    (hbody : (u.membersOf t).map Record.body = ms.map Record.body) (hfree : ∀ r ∈ u.membersOf t, r.route = none)
    (hahead : u.endsAhead u.bpu.position (u.membersOf t)) (audit : Bool) (start : Option RouteIx) :
    u.walksTo ms lead audit start (u.walkedFrom t lead audit start) := by
  have htags := tags_of_bodies hbody
  have hchain : u.walkChain lead.stamp (u.membersOf t) start = u.walkChain lead.stamp ms start :=
    State.walkChain_congr (s := u) rfl (fun o => u.accept_of_bodies o lead.stamp hbody) start
  have happly : ∀ result last, (u.mapRecords (fun r => r.leaderTag == t) (Record.walked last audit)).applyWalk t lead.cls result = u.afterWalk ms lead audit last result := by
    intro result last
    -- the cluster as the walk has seen it
    have hw : u.mapRecords (fun r => r.leaderTag == t) (Record.walked last audit) = u.withEach ms (Record.walked last audit) :=
      (State.mapRecords_leader hu _).trans (State.withEach_congr htags fun _ _ _ => rfl)
    have hwm : (u.withEach ms (Record.walked last audit)).membersOf t = (u.membersOf t).map (Record.walked last audit) := by
      rw [← hw]
      exact State.membersOf_mapRecords_leader u t fun _ => rfl
    have hwt : ((u.withEach ms (Record.walked last audit)).membersOf t).map Record.tag = ms.map Record.tag := by
      rw [hwm, List.map_map, ← htags]
      rfl
    have hws : (u.withEach ms (Record.walked last audit)).OwnTags t :=
      hw ▸ hu.of_map (f := fun q => if q.leaderTag == t then Record.walked last audit q else q) rfl (fun q => by split <;> rfl) (fun q => by split <;> rfl)
    have hcarry : ∀ (v : State) why, v.tc = (u.withEach ms (Record.walked last audit)).tc → v.bpu = u.bpu → v.params = u.params →
        v.carryCluster why t = v.setRecords (u.withEach ms (fun q => u.ride why (Record.walked last audit q))).tc.records := by
      intro v why htc hbpu hparams
      have hvm : v.membersOf t = (u.membersOf t).map (Record.walked last audit) := by
        rw [← hwm]
        unfold State.membersOf
        rw [htc]
      have hrouteless : ∀ r ∈ v.membersOf t, r.route = none := by
        rw [hvm]
        rintro _ hseen
        obtain ⟨r, hr, rfl⟩ := List.mem_map.mp hseen
        exact hfree r hr
      have hends : v.endsAhead v.bpu.position (v.membersOf t) := by
        rw [hvm]
        rintro _ hseen
        obtain ⟨r, hr, rfl⟩ := List.mem_map.mp hseen
        rw [hbpu]
        unfold State.endPoint
        rw [hparams]
        exact hahead r hr
      have hvs : v.OwnTags t := by
        refine hws.of_map (f := id) ?_ (fun _ => rfl) fun _ => rfl
        rw [htc, List.map_id]
      have hvt : (v.membersOf t).map Record.tag = ms.map Record.tag := by
        rw [hvm, ← hwm, hwt]
      rw [State.carryCluster_free hvs hrouteless why hends, State.ride_congr hparams]
      have htwice := State.withEach_withEach (s := u) (ms := ms) (ns := v.membersOf t) (f := Record.walked last audit) (g := u.ride why) hvt fun _ => rfl
      unfold State.setRecords
      rw [← htwice]
      unfold State.withEach
      rw [htc]
      rfl
    rw [hw]
    cases result with
    | accepted o i f =>
      have hweight : (u.withEach ms (Record.walked last audit)).clusterWeight ((u.withEach ms (Record.walked last audit)).membersOf t)
          = (ms.map (fun q => (u.classEntry q.cls).weight)).sum := by
        rw [State.clusterWeight_of_bodies _ (ns := (u.withEach ms (Record.walked last audit)).membersOf t) (ms := ms) (by rw [hwm, List.map_map, ← hbody]; rfl)]
        rfl
      unfold State.applyWalk
      dsimp only
      rw [hweight]
      refine (State.mapRecords_leader (s := (u.withEach ms (Record.walked last audit)).reserve o _ f t) (hws.of_map (f := id) (List.map_id _).symm (fun _ => rfl) fun _ => rfl) _).trans ?_
      refine (State.withEach_withEach (s := u.reserve o (ms.map (fun q => (u.classEntry q.cls).weight)).sum f t) (f := Record.walked last audit) hwt fun _ => rfl).trans ?_
      rw [← ht]
      rfl
    | chainEnd => exact hcarry _ .chainEnd rfl rfl rfl
    | noChain => exact hcarry _ .noChain rfl rfl rfl
    | planCheck kind i =>
      unfold State.applyWalk
      dsimp only
      rw [hcarry _ .planCheck (State.planCheck_tc _ _ _ _) (Work.planCheck ..).bpu (Work.planCheck ..).params]
      rw [State.planCheck_eq]
      rfl
  unfold State.walkedFrom
  rw [hchain, happly]
  cases start with
  | none => rfl
  | some i => exact ⟨_, _, State.walkFrom_walks u lead.stamp ms 16 0 i false none rfl, rfl⟩

/-! ### Clusters of books in order -/

theorem Record.leaderTag_of_leads {r : Record} (h : r.leads) : r.leaderTag = r.tag := by
  unfold Record.leaderTag
  split
  · next t ht => exact absurd ht (h t)
  · rfl

theorem Record.leads_of_none {r : Record} (h : r.cluster = none) : r.leads := fun t ht => by rw [h] at ht; cases ht

/-- No slot holds two records, and every live record's cluster has a live leader in its state, with its outlet and fire point (R23, R35). -/
structure State.Clustered (s : State) : Prop where
  slots : s.tableLaw
  leader : ∀ r ∈ s.tc.records, ∃ l ∈ s.tc.records, l.tag = r.leaderTag ∧ l.leads ∧ l.state = r.state
    ∧ l.route.map (fun x => (x.outlet, x.firePoint)) = r.route.map (fun x => (x.outlet, x.firePoint))

theorem State.booksLaw.clustered {s : State} (hs : s.booksLaw) : s.Clustered where
  slots := hs.slots
  leader r hr := by
    by_cases h : r.leads
    · exact ⟨r, hr, (Record.leaderTag_of_leads h).symm, h, rfl, rfl⟩
    · obtain ⟨t, ht⟩ := not_forall.mp h
      have ht := not_not.mp ht
      obtain ⟨l, hl, hlt, ⟨n, hn⟩, hstate, hroute⟩ := hs.members r hr t ht
      have hleads : l.leads := fun t' h' => by rw [hn] at h'; cases h'
      refine ⟨l, hl, ?_, hleads, hstate, hroute⟩
      unfold Record.leaderTag
      rw [ht]
      exact hlt

/-- The members of a cluster are in one state, at one outlet and with one fire point (R35). -/
theorem State.Clustered.same {s : State} (hs : s.Clustered) {r q : Record} (hr : r ∈ s.tc.records) (hq : q ∈ s.tc.records) (h : q.leaderTag = r.leaderTag) :
    q.state = r.state ∧ q.route.map (fun x => (x.outlet, x.firePoint)) = r.route.map (fun x => (x.outlet, x.firePoint)) := by
  obtain ⟨l, hl, hlt, -, hls, hlr⟩ := hs.leader r hr
  obtain ⟨m, hm, hmt, -, hms, hmr⟩ := hs.leader q hq
  have hlm : m = l := State.eq_of_tag hs.slots hl hm (by rw [hmt, hlt, h])
  subst hlm
  exact ⟨hms.symm.trans hls, hmr.symm.trans hlr⟩

/-- A ROUTED or DUE record's cluster is booked whole at its outlet. -/
theorem State.Clustered.booked {s : State} (hs : s.Clustered) {r : Record} (hr : r ∈ s.tc.records) (hstate : r.state = .routed ∨ r.state = .due) {route : Route}
    (hroute : r.route = some route) : s.BookedAt route.outlet r.leaderTag (s.membersOf r.leaderTag) where
  members := rfl
  nonempty := List.ne_nil_of_mem (State.mem_membersOf.mpr ⟨hr, rfl⟩)
  routed q hq := by
    obtain ⟨hq, ht⟩ := State.mem_membersOf.mp hq
    have hsame := (hs.same hr hq ht).2
    rw [hroute] at hsame
    obtain ⟨x, hx, he⟩ := Option.map_eq_some_iff.mp hsame
    exact ⟨x, hx, congrArg Prod.fst he⟩
  waits q hq := by
    obtain ⟨hq, ht⟩ := State.mem_membersOf.mp hq
    rw [(hs.same hr hq ht).1]
    exact hstate

/-- The members of a PENDING record's cluster hold no routes (R26). -/
theorem State.booksLaw.free {s : State} (hs : s.booksLaw) {r : Record} (hr : r ∈ s.tc.records) (hstate : r.state = .pending) : ∀ q ∈ s.membersOf r.leaderTag, q.route = none := by
  intro q hq
  obtain ⟨hq, ht⟩ := State.mem_membersOf.mp hq
  by_contra hne
  have hstates := (hs.routes q hq).mp hne
  rw [(hs.clustered.same hr hq ht).1, hstate] at hstates
  simp at hstates

/-! ### The three walks -/

/-- A cluster without routes decided (R63, R78, R79), whatever the rest of the table. -/
theorem State.decisionWalk_own {s : State} {lead : Record} (hs : s.OwnTags lead.tag) (hl : s.find lead.tag = some lead) (hfree : ∀ r ∈ s.membersOf lead.tag, r.route = none)
    (hahead : s.endsAhead s.bpu.position (s.membersOf lead.tag)) : s.decidesTo (s.membersOf lead.tag) lead (s.decisionWalk lead.tag) := by
  rw [State.decisionWalk_of_find hl]
  exact State.walkedFrom_walksTo (u := s.withSampler (s.sampledBy (s.classEntry lead.cls))) ⟨hs.nodup, hs.own⟩ rfl rfl hfree hahead _ _

/-- ... in a table that meets the law. -/
theorem State.decisionWalk_decidesTo {s : State} (hs : s.tableLaw) {lead : Record} (hl : lead ∈ s.tc.records) (hfree : ∀ r ∈ s.membersOf lead.tag, r.route = none)
    (hahead : s.endsAhead s.bpu.position (s.membersOf lead.tag)) : s.decidesTo (s.membersOf lead.tag) lead (s.decisionWalk lead.tag) :=
  State.decisionWalk_own (State.ownTags hs lead.tag) (State.find_tag hs hl) hfree hahead

/-- A booked cluster re-routed (R63, R81). -/
theorem State.reroute_reroutesTo {s : State} (hs : s.tableLaw) {o : OutletNo} {lead : Record} (hl : lead ∈ s.tc.records) (hself : lead.leaderTag = lead.tag)
    (hb : s.BookedAt o lead.tag (s.membersOf lead.tag)) (hahead : s.endsAhead s.bpu.position (s.membersOf lead.tag)) : s.reroutesTo o lead (s.reroute lead.tag) := by
  have hlm : lead ∈ s.membersOf lead.tag := State.mem_membersOf.mpr ⟨hl, hself⟩
  obtain ⟨mark, hmark⟩ : ∃ mark : Flags → Flags, mark = fun f => { f with rerouted := true } := ⟨_, rfl⟩
  obtain ⟨u, hu⟩ : ∃ u, u = s.withdrawRoute lead.tag mark := ⟨_, rfl⟩
  have hub := hu.trans (State.withdrawRoute_booked hs hb mark)
  have hrecords : u.tc.records = (s.withEach (s.membersOf lead.tag) (Record.unrouted mark)).tc.records := by rw [hub]; rfl
  have hus : u.tableLaw := by
    unfold State.tableLaw
    rw [hrecords]
    exact State.withEach_tableLaw hs fun _ => rfl
  have hfound : u.find lead.tag = some (lead.unrouted mark) := by
    have h := State.find_withEach (ms := s.membersOf lead.tag) (f := Record.unrouted mark) hs (fun _ => rfl) hl
    rw [if_pos (List.mem_map_of_mem hlm)] at h
    unfold State.find at h ⊢
    rw [hrecords]
    exact h
  have hmembers : u.membersOf lead.tag = (s.membersOf lead.tag).map (Record.unrouted mark) := by
    have h := s.membersOf_mapRecords_leader lead.tag (f := Record.unrouted mark) fun _ => rfl
    rw [State.mapRecords_leader (State.ownTags hs _)] at h
    unfold State.membersOf at h ⊢
    rw [hrecords]
    exact h
  have hwalk : s.reroute lead.tag = u.walk .reroute lead.tag := by
    rw [hu, hmark]
    rfl
  rw [hwalk, State.walk_again (by decide) hfound]
  have hends : u.endsAhead u.bpu.position (u.membersOf lead.tag) := by
    rw [hmembers]
    rintro _ hseen
    obtain ⟨r, hr, rfl⟩ := List.mem_map.mp hseen
    rw [hub]
    exact hahead r hr
  have hgoal := State.walkedFrom_walksTo (lead := lead) (ms := s.membersOf lead.tag) (State.ownTags hus _) rfl (by rw [hmembers, List.map_map]; rfl)
    (by rw [hmembers]; rintro _ hseen; obtain ⟨r, hr, rfl⟩ := List.mem_map.mp hseen; rfl) hends false
    (if lead.flags.audit = true ∧ (s.classEntry lead.cls).auditHead ≠ none then (s.classEntry lead.cls).auditHead else (s.classEntry lead.cls).head)
  subst hmark
  rw [hub] at hgoal ⊢
  exact hgoal

end Sys2Proof.Machine
end

section
/-! PROOFS. Decision points: a forward tick, the waypoints of one kind that it reaches, and the decision of a cluster. -/

namespace Sys2Proof.Machine

/-! ### A forward tick and what it reaches -/

/-- A forward tick that raises no TRACK LOSS moves the belt and reaches its waypoints (R5, R8, R18). -/
theorem State.exec_plainTick {s : State} {a b : Bool} (h : s.plainTick a b) : exec (.encoderStep a b) s = .next (s.moved a b).reachWaypoints := by
  obtain ⟨⟨a₀, b₀, ha, hb, hrow⟩, hquiet⟩ := h
  obtain ⟨p, hp⟩ : ∃ p, p = s.bpu.position + 1 := ⟨_, rfl⟩
  obtain ⟨h, hh⟩ : ∃ h, h = if (p - s.bpu.hwm).toNat < 8388608 then p else s.bpu.hwm := ⟨_, rfl⟩
  let u : State := { s.accepting a b with bpu := { (s.accepting a b).bpu with position := p, hwm := h, windowCount := s.bpu.windowCount + 1 } }
  have hu : (s.accepting a b).encoderStep .forward = u.judgeExcess.reachWaypoints := by
    have hhwm : (if atOrBeyond p s.bpu.hwm = true then p else s.bpu.hwm) = h := by
      rw [hh]
      unfold atOrBeyond
      simp only [decide_eq_true_eq]
    rw [hp] at hhwm
    simp only [State.encoderStep, State.tickForward, u, ← hhwm, hp]
    rfl
  have hmoved : s.moved a b = { u with bpu := { u.bpu with reverseExcess := decide (s.params.reverseAllow < (h - p).toNat) } } := by
    unfold State.moved
    dsimp only
    rw [← hp, ← hh]
    rfl
  rw [exec_encoderStep ha hb a b, judgeStep_forward hrow, hu, State.judgeExcess_quiet (s := u), hmoved]
  · rfl
  · refine hquiet.imp id fun hq => ?_
    rw [hmoved] at hq
    exact Nat.le_of_not_lt (of_decide_eq_false hq)

/-- No cluster in a state has a waypoint at the position, so none is acted on. -/
theorem State.reachKind_of_no {s : State} {st : RecordState} {p : Pos} (h : ∀ r ∈ s.tc.records, r.state = st → r.waypoint ≠ some p) (act : State → Tag → State) :
    s.reachKind st p act = s := by
  have hnil : s.tc.records.filter (fun r => r.state == st && r.waypoint == some p) = [] :=
    List.filter_eq_nil_iff.mpr fun r hr hp => by
      simp only [Bool.and_eq_true, beq_iff_eq] at hp
      exact h r hr hp.1 hp.2
  unfold State.reachKind State.reachedIn
  rw [hnil]
  rfl

theorem State.stillAt_iff {s : State} {st : RecordState} {p : Pos} {t : Tag} : s.stillAt st p t = true ↔ ∃ r ∈ s.tc.records, r.leaderTag = t ∧ r.state = st ∧ r.waypoint = some p := by
  simp only [State.stillAt, List.any_eq_true, State.mem_membersOf, Bool.and_eq_true, beq_iff_eq, and_assoc]

/-- A list of one value keeps it once. -/
theorem eraseDups_of_all_eq {t : Tag} {l : List Tag} (h : ∀ x ∈ l, x = t) (hne : l ≠ []) : l.eraseDups = [t] := by
  obtain ⟨x, rest, rfl⟩ := List.exists_cons_of_ne_nil hne
  have hx := h x List.mem_cons_self
  subst hx
  have hnil : (rest.filter fun b => !b == x) = [] := List.filter_eq_nil_iff.mpr fun b hb => by simp [h b (List.mem_cons_of_mem x hb)]
  rw [List.eraseDups_cons, hnil, List.eraseDups_nil]

/-- One cluster alone has a waypoint of a kind at the position, so it alone is acted on. -/
theorem State.reachKind_one {s : State} {st : RecordState} {p : Pos} {t : Tag} (hone : ∃ r ∈ s.tc.records, r.leaderTag = t ∧ r.state = st ∧ r.waypoint = some p)
    (honly : ∀ r ∈ s.tc.records, r.state = st → r.waypoint = some p → r.leaderTag = t) (act : State → Tag → State) : s.reachKind st p act = act s t := by
  have hreached : s.reachedIn st p = [t] := by
    unfold State.reachedIn
    obtain ⟨r, hr, hrt, hrs, hrw⟩ := hone
    have hall : ∀ x ∈ (s.tc.records.filter (fun r => r.state == st && r.waypoint == some p)).map (·.leaderTag), x = t := by
      intro x hx
      obtain ⟨q, hq, rfl⟩ := List.mem_map.mp hx
      simp only [List.mem_filter, Bool.and_eq_true, beq_iff_eq] at hq
      exact honly q hq.1 hq.2.1 hq.2.2
    have hmem : t ∈ (s.tc.records.filter (fun r => r.state == st && r.waypoint == some p)).map (·.leaderTag) :=
      List.mem_map.mpr ⟨r, by simp [hr, hrs, hrw], hrt⟩
    exact eraseDups_of_all_eq hall (List.ne_nil_of_mem hmem)
  unfold State.reachKind
  rw [hreached]
  exact if_pos (State.stillAt_iff.mpr hone)

/-! ### What a walk leaves of its cluster -/

/-- What a walk makes of a member: ROUTED in its cluster, or CARRIED alone (R37, R39). -/
structure Record.Walked (old new : Record) : Prop where
  tag : new.tag = old.tag
  state : new.state = .routed ∨ new.state = .carried
  leader : new.leaderTag = old.leaderTag ∨ new.leaderTag = old.tag

/-- A walk leaves its members ROUTED or CARRIED, and every other record as it was (R37, R39). -/
theorem State.walksTo_records {s t : State} {ms : List Record} {lead : Record} {audit : Bool} {start : Option RouteIx} (h : s.walksTo ms lead audit start t) :
    ∃ f : Record → Record, (∀ q, Record.Walked q (f q)) ∧ t.tc = (s.withEach ms f).tc := by
  have hafter : ∀ last result, ∃ f : Record → Record, (∀ q, Record.Walked q (f q))
      ∧ (s.afterWalk ms lead audit last result).tc = (s.withEach ms f).tc := by
    intro last result
    cases result with
    | accepted o i f =>
      refine ⟨_, ?_, rfl⟩
      exact fun q => ⟨rfl, .inl rfl, .inl rfl⟩
    | chainEnd =>
      refine ⟨_, ?_, rfl⟩
      exact fun q => ⟨rfl, .inr rfl, .inr rfl⟩
    | noChain =>
      refine ⟨_, ?_, rfl⟩
      exact fun q => ⟨rfl, .inr rfl, .inr rfl⟩
    | planCheck kind i =>
      refine ⟨_, ?_, rfl⟩
      exact fun q => ⟨rfl, .inr rfl, .inr rfl⟩
  unfold State.walksTo at h
  cases start with
  | none =>
    rw [h]
    exact hafter none .noChain
  | some i =>
    obtain ⟨result, last, -, rfl⟩ := h
    exact hafter last result

/-- The live record of a tag is the only one (R23). -/
theorem State.filter_tag {s : State} (hs : s.tableLaw) {r : Record} (hr : r ∈ s.tc.records) : s.tc.records.filter (fun q => q.tag == r.tag) = [r] := by
  have hall : ∀ q ∈ s.tc.records.filter (fun q => q.tag == r.tag), q = r := fun q hq => by
    obtain ⟨hq, ht⟩ := List.mem_filter.mp hq
    exact State.eq_of_tag hs hr hq (beq_iff_eq.mp ht)
  have hmem : r ∈ s.tc.records.filter (fun q => q.tag == r.tag) := List.mem_filter.mpr ⟨hr, beq_self_eq_true _⟩
  have hnodup : (s.tc.records.filter (fun q => q.tag == r.tag)).Nodup := (List.Nodup.of_map _ (State.tags_nodup hs)).filter _
  generalize s.tc.records.filter (fun q => q.tag == r.tag) = l at hall hmem hnodup
  obtain ⟨x, rest, rfl⟩ := List.exists_cons_of_ne_nil (List.ne_nil_of_mem hmem)
  rw [hall x List.mem_cons_self] at hnodup ⊢
  have hnil : rest = [] := List.eq_nil_iff_forall_not_mem.mpr fun y hy => (List.nodup_cons.mp hnodup).1 (hall y (List.mem_cons_of_mem x hy) ▸ hy)
  rw [hnil]

/-- A record that ties itself to none, and to which none is tied, is its whole cluster (R35). -/
theorem State.membersOf_alone {s : State} (hs : s.tableLaw) {r : Record} (hr : r ∈ s.tc.records) (hc : r.cluster = none)
    (hothers : ∀ q ∈ s.tc.records, q.tag ≠ r.tag → q.leaderTag ≠ r.tag) : s.membersOf r.tag = [r] := by
  have hpick : ∀ q ∈ s.tc.records, (q.leaderTag == r.tag) = (q.tag == r.tag) := by
    intro q hq
    by_cases he : q.tag = r.tag
    · rw [State.eq_of_tag hs hr hq he, Record.leaderTag_of_leads (Record.leads_of_none hc)]
    · rw [beq_false_of_ne he, beq_false_of_ne (hothers q hq he)]
  unfold State.membersOf
  rw [List.filter_congr hpick]
  exact State.filter_tag hs hr

/-- The tick of a decision point that one cluster alone has reached: the cluster is decided and nothing else comes of the tick (R29, R30). -/
theorem State.reachWaypoints_decides {s : State} (hs : s.tableLaw) {lead : Record} (hl : lead ∈ s.tc.records)
    (hstate : ∀ r ∈ s.membersOf lead.tag, r.state = .pending) (hfree : ∀ r ∈ s.membersOf lead.tag, r.route = none)
    (hreach : s.reachesOnly s.bpu.position (s.membersOf lead.tag)) (hahead : s.endsAhead s.bpu.position (s.membersOf lead.tag)) :
    s.decidesTo (s.membersOf lead.tag) lead s.reachWaypoints := by
  obtain ⟨⟨q, hq, hqw⟩, honly⟩ := hreach
  obtain ⟨hqr, hqt⟩ := State.mem_membersOf.mp hq
  have hdecides := State.decisionWalk_decidesTo hs hl hfree hahead
  have hpending : ∀ st, st ≠ .pending → ∀ r ∈ s.tc.records, r.state = st → r.waypoint ≠ some s.bpu.position := by
    rintro st hne r hr rfl hw
    exact hne (hstate r (honly r hr hw))
  have hone := State.reachKind_one (st := .pending) ⟨q, hqr, hqt, hstate q hq, hqw⟩ (fun r hr _ hw => (State.mem_membersOf.mp (honly r hr hw)).2) State.decisionWalk
  have hlast : ∀ r ∈ (s.decisionWalk lead.tag).tc.records, r.state = .due → r.waypoint ≠ some s.bpu.position := by
    obtain ⟨f, hf, htc⟩ := State.walksTo_records hdecides
    intro r hr hdue hw
    rw [htc] at hr
    obtain ⟨x, hx, rfl⟩ := List.mem_map.mp hr
    split at hdue
    · obtain h | h := (hf x).state <;> rw [h] at hdue <;> cases hdue
    · next hout =>
      rw [if_neg hout] at hw
      exact hpending .due (by decide) x hx hdue hw
  unfold State.reachWaypoints
  dsimp only
  rw [State.reachKind_of_no (hpending .carried (by decide)), State.reachKind_of_no (hpending .due (by decide)), State.reachKind_of_no (hpending .routed (by decide)), hone,
    State.reachKind_of_no hlast]
  exact hdecides

/-! ### The decision of a cluster -/

/-- Settles O24: the tick decides the cluster alone, by one walk. -/
theorem decisionPointDecidesAWholeCluster : Obligations.DecisionPointDecidesAWholeCluster := by
  intro s a b lead ms htick hs hl hleads hstate hms hreach hahead
  have hself : lead.leaderTag = lead.tag := Record.leaderTag_of_leads hleads
  have hpending : ∀ r ∈ s.membersOf lead.tag, r.state = .pending := fun r hr => by
    obtain ⟨hr, ht⟩ := State.mem_membersOf.mp hr
    rw [(hs.clustered.same hl hr (ht.trans hself.symm)).1, hstate]
  have hfree := hs.free hl hstate
  rw [hself] at hfree
  rw [hms] at hreach hahead ⊢
  exact ⟨_, State.exec_plainTick htick, State.reachWaypoints_decides (s := s.moved a b) hs.slots hl hpending hfree hreach hahead⟩

/-- A record that is alone is its whole cluster. -/
theorem State.loneAt_members {s : State} {r : Record} {p : Pos} (hs : s.tableLaw) (h : s.loneAt r p) : s.membersOf r.tag = [r] := by
  obtain ⟨hr, hc, -, hothers⟩ := h
  exact State.membersOf_alone hs hr hc fun q hq hne => (hothers q hq hne).2

/-- Settles O21: the walk of a cluster of one, ended by its first entry. -/
theorem decisionPointDecidesALoneRecord : Obligations.DecisionPointDecidesALoneRecord := by
  intro s a b r e v picked start u q htick hs hlone hstate hroute he hv hpicked hstart hu hq hend
  have hms : (s.moved a b).membersOf r.tag = [r] := s.loneAt_members hs hlone
  obtain ⟨hr, hc, hw, hothers⟩ := hlone
  have hreach : (s.moved a b).reachesOnly (s.moved a b).bpu.position [r] := by
    refine ⟨⟨r, List.mem_singleton_self r, hw⟩, fun x hx hxw => ?_⟩
    by_contra hne
    have htag : x.tag ≠ r.tag := fun e => hne (List.mem_singleton.mpr (State.eq_of_tag hs hr hx e))
    exact (hothers x hx htag).1 hxw
  have hdecides := State.reachWaypoints_decides (s := s.moved a b) hs hr (by rw [hms]; simpa using hstate) (by rw [hms]; simpa using hroute) (by rw [hms]; exact hreach)
    (by rw [hms]; exact fun x hx => by rw [List.mem_singleton.mp hx]; exact hend)
  rw [hms] at hdecides
  have hes : (s.moved a b).classEntry r.cls = e := he.symm
  unfold State.decidesTo at hdecides
  rw [hes] at hdecides
  have hstart' : (if decide (e.auditEnable = true ∧ v.toNat % 2 ^ s.params.auditRate = 0 ∧ e.auditHead ≠ none) = true then e.auditHead else e.head) = start := by
    rw [hstart, hpicked]
  have hwalks : u.walksTo [r] r picked start (s.moved a b).reachWaypoints := by
    rw [hu, hpicked, ← hstart', hv]
    exact hdecides
  have hus : u.tableLaw := by rw [hu]; exact hs
  have hur : r ∈ u.tc.records := by rw [hu]; exact hr
  have hone : ∀ f : Record → Record, u.withEach [r] f = u.withRecord r.tag (f r) := State.withEach_single hus hur
  rw [State.exec_plainTick htick]
  refine ⟨fun hnone => ?_, fun i hi => ?_⟩
  · rw [hnone] at hwalks
    rw [show (s.moved a b).reachWaypoints = _ from hwalks]
    exact congrArg Host.Outcome.next ((hone _).trans (by rw [hq]))
  · rw [hi] at hwalks
    obtain ⟨result, last, hwalk, hafter⟩ := hwalks
    have hbank : ∀ x, vget s.rd.activeBank.routes i = x → vget u.rd.activeBank.routes i = x := fun x h => by rw [hu]; exact h
    have hends : ∀ result' last', RouteWalk u r.stamp [r] 0 i false none result' last' → (s.moved a b).reachWaypoints = u.afterWalk [r] r picked last' result' := by
      intro result' last' h
      obtain ⟨rfl, rfl⟩ := hwalk.unique h
      exact hafter
    refine ⟨fun hstop => ?_, fun o chain f hentry haccept => ?_, fun o why hentry hrefuse => ?_, fun o why hentry h255 hrefuse => ?_⟩
    · rw [hends _ _ (.chainEnd (by decide) (hbank _ hstop))]
      exact congrArg Host.Outcome.next ((hone _).trans (by rw [hq]))
    · rw [hends _ _ (.accepts (by decide) (hbank _ hentry) haccept)]
      unfold State.afterWalk
      dsimp only
      rw [hone, hq]
      have hweight : (u.classEntry r.cls).weight = e.weight := by rw [he, hu]; rfl
      have hout : u.outlet o = s.outlet o := by rw [hu]; rfl
      simp only [List.map_cons, List.map_nil, List.sum_cons, List.sum_nil, Nat.add_zero, hweight, hout]
    · rw [hends _ _ (.refuses (by decide) (hbank _ hentry) hrefuse)]
      exact congrArg Host.Outcome.next ((hone _).trans (by rw [hq]))
    · subst h255
      rw [hends _ _ (.pastEnd (by decide) (hbank _ hentry) hrefuse)]
      unfold State.afterWalk
      dsimp only
      rw [hone, hq, hu]
      rfl

end Sys2Proof.Machine
end

section
/-! PROOFS. Loss of acceptance: the clusters that wait at an outlet re-routed one after another. -/

namespace Sys2Proof.Machine

/-! ### Clusters apart from one another -/

/-- What becomes of one cluster's members leaves another cluster's as they are. -/
theorem State.membersOf_withEach_other {s : State} (hs : s.tableLaw) {t t' : Tag} (hne : t' ≠ t) (hl : ∃ l ∈ s.tc.records, l.tag = t' ∧ l.leaderTag = t') {f : Record → Record}
    (hf : ∀ q, (f q).leaderTag = q.leaderTag ∨ (f q).leaderTag = q.tag) : (s.withEach (s.membersOf t) f).membersOf t' = s.membersOf t' := by
  obtain ⟨l, hl, hlt, hll⟩ := hl
  -- a record that changes is in neither cluster led by `t'`, before or after
  have hapart : ∀ q ∈ s.tc.records, q.leaderTag = t → (f q).leaderTag ≠ t' := by
    intro q hq ht h
    obtain h' | h' := hf q
    · exact hne (h.symm.trans (h'.trans ht))
    · have hql : q = l := State.eq_of_tag hs hl hq ((h'.symm.trans h).trans hlt.symm)
      rw [hql, hll] at ht
      exact hne ht
  have hpick : ∀ q ∈ s.tc.records, ((if q.tag ∈ (s.membersOf t).map Record.tag then f q else q).leaderTag == t') = (q.leaderTag == t') := by
    intro q hq
    by_cases hm : q.tag ∈ (s.membersOf t).map Record.tag
    · have ht := (State.mem_membersOf_tags hs hq).mp hm
      rw [if_pos hm, beq_false_of_ne (hapart q hq ht), beq_false_of_ne fun h => hne (h.symm.trans ht)]
    · rw [if_neg hm]
  show ((s.tc.records.map fun q => if q.tag ∈ (s.membersOf t).map Record.tag then f q else q).filter fun q => q.leaderTag == t') = _
  rw [List.filter_map, show s.tc.records.filter ((fun q => q.leaderTag == t') ∘ fun q => if q.tag ∈ (s.membersOf t).map Record.tag then f q else q)
    = s.membersOf t' from List.filter_congr hpick]
  refine (List.map_congr_left fun q hq => ?_).trans (List.map_id _)
  obtain ⟨hq, ht⟩ := State.mem_membersOf.mp hq
  rw [if_neg fun h => hne (ht.symm.trans ((State.mem_membersOf_tags hs hq).mp h))]
  rfl

/-! ### One re-route after another -/

/-- A cluster that waits whole at an outlet, its leader live and its end points ahead. -/
structure State.WaitsWhole (s : State) (o : OutletNo) (t : Tag) : Prop where
  leader : ∃ l ∈ s.tc.records, l.tag = t ∧ l.leaderTag = t
  booked : s.BookedAt o t (s.membersOf t)
  ahead : s.endsAhead s.bpu.position (s.membersOf t)

theorem State.reroutesTo_records {s t : State} {o : OutletNo} {lead : Record} (h : s.reroutesTo o lead t) :
    ∃ f : Record → Record, (∀ q, Record.Walked q (f q)) ∧ t.tc = (s.withEach (s.membersOf lead.tag) f).tc := by
  obtain ⟨f, hf, htc⟩ := State.walksTo_records h
  refine ⟨fun q => f (q.unrouted fun x => { x with rerouted := true }), fun q => ⟨(hf _).tag, (hf _).state, (hf _).leader⟩, htc.trans ?_⟩
  have htwice := State.withEach_withEach (s := s) (ms := s.membersOf lead.tag) (g := f) (f := Record.unrouted fun x => { x with rerouted := true }) rfl fun _ => rfl
  exact (congrArg State.tc htwice :)

/-- A cluster that waits at the outlet is re-routed, and every other that waits there waits as before. -/
theorem State.WaitsWhole.reroute {s : State} (hs : s.tableLaw) {o : OutletNo} {t : Tag} (h : s.WaitsWhole o t) :
    ∃ lead ∈ s.tc.records, lead.tag = t ∧ s.reroutesTo o lead (s.reroute t) ∧ (s.reroute t).tableLaw
      ∧ ∀ t', t' ≠ t → s.WaitsWhole o t' → (s.reroute t).WaitsWhole o t' := by
  obtain ⟨l, hl, rfl, hself⟩ := h.leader
  have hr := State.reroute_reroutesTo hs hl hself h.booked h.ahead
  obtain ⟨f, hf, htc⟩ := State.reroutesTo_records hr
  have hwork := Work.reroute s l.tag
  have hmembers : ∀ t', t' ≠ l.tag → s.WaitsWhole o t' → (s.reroute l.tag).membersOf t' = s.membersOf t' := by
    intro t' hne h'
    unfold State.membersOf
    rw [htc]
    exact State.membersOf_withEach_other hs hne h'.leader fun q => (hf q).leader
  refine ⟨l, hl, rfl, hr, ?_, fun t' hne h' => ⟨?_, ?_, ?_⟩⟩
  · unfold State.tableLaw
    rw [htc]
    exact State.withEach_tableLaw hs fun q => (hf q).tag
  · obtain ⟨l', hl', hlt', hself'⟩ := h'.leader
    refine ⟨l', ?_, hlt', hself'⟩
    rw [htc]
    refine List.mem_map.mpr ⟨l', hl', if_neg fun hm => hne ?_⟩
    rw [← hself']
    exact (State.mem_membersOf_tags hs hl').mp hm
  · obtain ⟨-, hne', hrouted, hwaits⟩ := h'.booked
    rw [hmembers t' hne h']
    exact ⟨hmembers t' hne h', hne', hrouted, hwaits⟩
  · rw [hmembers t' hne h', hwork.bpu]
    unfold State.endsAhead State.endPoint
    rw [hwork.params]
    exact h'.ahead

/-- Clusters that wait whole at an outlet are all re-routed, in their order (R82). -/
theorem State.reroutesEach {o : OutletNo} : ∀ {ts : List Tag} {s : State}, s.tableLaw → ts.Nodup → (∀ t ∈ ts, s.WaitsWhole o t) →
    ReroutesEach o s ts (ts.foldl (fun s t => if (s.membersOf t).any (fun r => r.waitsAt o) then s.reroute t else s) s)
  | [], _, _, _, _ => .none
  | t :: rest, s, hs, hn, h => by
    obtain ⟨hnot, hrest⟩ := List.nodup_cons.mp hn
    have ht := h t List.mem_cons_self
    have hwaits : (s.membersOf t).any (fun r => r.waitsAt o) = true := by
      obtain ⟨-, hne, hrouted, hwaits⟩ := ht.booked
      obtain ⟨r, more, hr⟩ := List.exists_cons_of_ne_nil hne
      have hmem : r ∈ s.membersOf t := hr ▸ List.mem_cons_self
      exact List.any_eq_true.mpr ⟨r, hmem, Record.waitsAt_iff.mpr ⟨hwaits r hmem, hrouted r hmem⟩⟩
    obtain ⟨lead, hl, rfl, hr, hs', hothers⟩ := ht.reroute hs
    rw [List.foldl_cons, if_pos hwaits]
    exact .next hl hr (State.reroutesEach hs' hrest fun t' ht' => hothers t' (fun e => hnot (e ▸ ht')) (h t' (List.mem_cons_of_mem _ ht')))

theorem nodup_eraseDups (l : List Tag) : l.eraseDups.Nodup := by
  induction hn : l.length using Nat.strong_induction_on generalizing l with
  | _ n ih =>
    cases l with
    | nil => exact List.nodup_nil
    | cons t rest =>
      rw [List.eraseDups_cons, List.nodup_cons, List.mem_eraseDups]
      refine ⟨by simp, ih _ ?_ _ rfl⟩
      rw [← hn]
      exact Nat.lt_succ_of_le (List.length_filter_le ..)

/-- The clusters that wait at an outlet wait whole there (R35). -/
theorem State.Clustered.waitsWhole {s : State} (hs : s.Clustered) (hahead : s.endsAhead s.bpu.position s.tc.records) {o : OutletNo} {t : Tag} (ht : t ∈ s.clustersAt o) :
    s.WaitsWhole o t := by
  rw [State.clustersAt, List.mem_eraseDups] at ht
  obtain ⟨r, hpicked, rfl⟩ := List.mem_map.mp ht
  obtain ⟨hr, hw⟩ := List.mem_filter.mp hpicked
  obtain ⟨hstate, route, hroute, rfl⟩ := Record.waitsAt_iff.mp hw
  obtain ⟨l, hl, hlt, hleads, -⟩ := hs.leader r hr
  exact ⟨⟨l, hl, hlt, (Record.leaderTag_of_leads hleads).trans hlt⟩, hs.booked hr hstate hroute, fun q hq => hahead q (State.mem_membersOf.mp hq).1⟩

/-- A loss of acceptance re-routes every cluster that waits at the outlet (R82, R106). -/
theorem State.Clustered.loseAcceptance {s : State} (hs : s.Clustered) (hahead : s.endsAhead s.bpu.position s.tc.records) (o : OutletNo) :
    ReroutesEach o s (s.clustersAt o) (s.loseAcceptance o) :=
  State.reroutesEach hs.slots (nodup_eraseDups _) fun _ ht => hs.waitsWhole hahead ht

/-- Clusters stand by the records alone. -/
theorem State.Clustered.of_records {s t : State} (hs : s.Clustered) (h : t.tc.records = s.tc.records) : t.Clustered where
  slots := by
    unfold State.tableLaw
    rw [h]
    exact hs.slots
  leader := by
    rw [h]
    exact hs.leader

/-! ### A rack removed -/

theorem exec_rackRemoval_new {s : State} {o : OutletNo} (h : (s.outlet o).rackFilter.accepted = some true) :
    exec (.rackRemoval o) s = .next ((s.dropDue (.rackRemoval o)).rackRemoved o) := if_pos h

theorem exec_rackRemoval_old {s : State} {o : OutletNo} (h : (s.outlet o).rackFilter.accepted ≠ some true) : exec (.rackRemoval o) s = .next s := if_neg h

theorem State.loseSet_none {s : State} {o : OutletNo} (h : (s.outlet o).strokeSet = none) : s.loseSet o = s := by
  unfold State.loseSet
  rw [h]

/-- The rack that has left is counted, and fill is 0 (R94, steps 4 and 5). -/
theorem State.rackGone_eq (s : State) (o : OutletNo) (key : Option KeyNo) :
    (if 0 < (s.outlet o).fill then (match key with | some k => s.countKey k .racks | none => s).countOutlet o .racks 1 else s).modOutlet o (fun x => { x with fill := 0 })
      = s.rackGone o key := by
  unfold State.rackGone
  by_cases h : (s.outlet o).fill = 0
  · rw [if_neg (by omega), if_pos h]
    rfl
  · rw [if_pos (by omega), if_neg h]
    cases key <;> rfl

/-- A rack removal by its steps (R94). -/
theorem State.rackRemoved_eq (s : State) (o : OutletNo) :
    s.rackRemoved o =
      if (s.outlet o).strokeSet.isSome = true then
        ((((s.withOutlet o { s.outlet o with
          rackFilter := { accepted := some false, run := (s.outlet o).rackFilter.run, count := 0 }, rack := .absent, rackKey := none }).loseAcceptance o).loseSet o).rackGone o
            (s.outlet o).rackKey).grantDecision
      else
        (((s.withOutlet o { s.outlet o with
          rackFilter := { accepted := some false, run := (s.outlet o).rackFilter.run, count := 0 }, rack := .absent, rackKey := none }).loseAcceptance o).loseSet o).rackGone o
            (s.outlet o).rackKey := by
  rw [← State.rackGone_eq]
  rfl

/-! ### The four losses of acceptance -/

/-- Settles O27: each loss of acceptance is the outlet's own condition and the re-routes after it. -/
theorem lossOfAcceptanceReroutesEveryCluster : Obligations.LossOfAcceptanceReroutesEveryCluster := by
  intro s o hbooks hahead
  have hs := hbooks.clustered
  refine ⟨fun hdue hb => ?_, fun hdue hp hf hh => ?_, fun hrack hset => ?_, fun b hb hhold hen => ?_⟩
  · refine ⟨_, ?_, State.Clustered.loseAcceptance (s := (({ s with due := s.due.erase (.chuteBlocked o) } : State).withOutlet o
      { s.outlet o with blocked := true }).withLatches 0x02) (hs.of_records rfl) hahead o⟩
    rw [exec_chuteBlocked, State.takeDue_of hdue ((s.stands_chuteBlocked o).mpr hb)]
    rfl
  · refine ⟨_, ?_, State.Clustered.loseAcceptance (s := (({ s with due := s.due.erase (.homeTimeout o) } : State).withOutlet o
      { s.outlet o with paddle := .faulted }).withLatches 0x02) (hs.of_records rfl) hahead o⟩
    rw [exec_homeTimeout, State.takeDue_of hdue ((s.outlet o).homeLate_iff.mpr ⟨hp, hf, hh⟩)]
    exact congrArg Host.Outcome.next (State.enterFaulted_of_recover (s := s.dropDue (.homeTimeout o)) hp)
  · refine ⟨_, ?_, State.Clustered.loseAcceptance (s := ({ s with due := s.due.erase (.rackRemoval o) } : State).withOutlet o { s.outlet o with
      rackFilter := { accepted := some false, run := (s.outlet o).rackFilter.run, count := 0 }, rack := .absent, rackKey := none }) (hs.of_records rfl) hahead o⟩
    have hout := (Paperwork.loseAcceptance (({ s with due := s.due.erase (.rackRemoval o) } : State).withOutlet o { s.outlet o with
      rackFilter := { accepted := some false, run := (s.outlet o).rackFilter.run, count := 0 }, rack := .absent, rackKey := none }) o).outlet o
    have hnone := hout.same.2.1.trans ((congrArg Outlet.strokeSet (State.outlet_setOutlet_self _ _ _)).trans hset)
    rw [exec_rackRemoval_new hrack, State.rackRemoved_eq, if_neg (by rw [show ((s.dropDue (.rackRemoval o)).outlet o).strokeSet = none from hset]; simp), State.loseSet_none]
    · rfl
    · exact hnone
  · refine ⟨_, ?_, State.Clustered.loseAcceptance (s := s.withOutlet o { s.outlet o with enabled := false }) (hs.of_records rfl) hahead o⟩
    exact exec_served (body := fun s => s.onOutlet b s.disableOutlet) rfl hhold ((State.onOutlet_of hb _).trans (if_pos hen))

end Sys2Proof.Machine
end

section
/-! PROOFS. Amendment: what is written, what is refused, and the walk of a ROUTED cluster whose record is amended. -/

namespace Sys2Proof.Machine

/-! ### The records after a walk, whatever ends at once -/

/-- Records that nothing ties leave the table and no other record is touched (R40). -/
theorem State.retireAll_unlinked_records {c : RetireOutcome} : ∀ (ts : List Tag) {s : State}, (∀ r ∈ s.tc.records, r.tag ∈ ts → r.cluster = none) →
    (s.retireAll c ts).tc.records = s.tc.records.filter (fun r => !ts.contains r.tag)
  | [], s, _ => by
    show s.tc.records = _
    simp
  | t :: rest, s, h => by
    have hone : (s.retire c t).tc.records = s.tc.records.filter (fun x => x.tag != t) := State.retire_records fun r hr e => h r hr (e ▸ List.mem_cons_self)
    have hrest := State.retireAll_unlinked_records (c := c) rest (s := s.retire c t) fun r hr ht => by
      rw [hone] at hr
      exact h r (List.mem_filter.mp hr).1 (List.mem_cons_of_mem t ht)
    show ((s.retire c t).retireAll c rest).tc.records = _
    rw [hrest, hone, List.filter_filter]
    refine List.filter_congr fun r _ => ?_
    simp only [List.contains_cons, Bool.not_or, bne, Bool.and_comm]

/-- A record after its cluster is carried rides, and any other stands (R39). -/
theorem State.mem_carryCluster {s : State} (hs : s.tableLaw) {why : CarryReason} {t : Tag} {q' : Record} (h : q' ∈ (s.carryCluster why t).tc.records) :
    ∃ q ∈ s.tc.records, q' = if q.leaderTag = t then s.ride why q else q := by
  have hd : (s.detach t).tableLaw := by
    rw [State.tableLaw, State.detach_tc]
    exact hs
  have hparams := (s.detach_bpu_params t).2
  have hmem : ∀ r ∈ s.membersOf t, r ∈ (s.detach t).tc.records := fun r hr => by
    rw [State.detach_tc]
    exact (State.mem_membersOf.mp hr).1
  have hrecords : (((s.membersOf t).foldl State.giveBack (s.detach t)).withEach (s.membersOf t) ((s.detach t).ride why)).tc.records
      = s.tc.records.map (fun q => if q.tag ∈ (s.membersOf t).map Record.tag then s.ride why q else q) := by
    unfold State.withEach
    dsimp only
    rw [State.foldl_giveBack_tc, State.detach_tc, State.ride_congr hparams]
  change q' ∈ ((s.detach t).carryAll why ((s.membersOf t).map Record.tag)).tc.records at h
  rw [State.carryAll_eq hd hmem (State.membersOf_nodup hs t), State.retireAll_unlinked_records, hrecords] at h
  · obtain ⟨q, hq, rfl⟩ := List.mem_map.mp (List.mem_filter.mp h).1
    refine ⟨q, hq, ?_⟩
    simp only [State.mem_membersOf_tags hs hq]
  · intro r hr ht
    have hended : r.tag ∈ (s.membersOf t).map Record.tag := by
      obtain ⟨x, hx, hxt⟩ := List.mem_map.mp ht
      exact hxt ▸ List.mem_map_of_mem (List.mem_filter.mp hx).1
    rw [hrecords] at hr
    obtain ⟨q, hq, rfl⟩ := List.mem_map.mp hr
    by_cases hm : q.tag ∈ (s.membersOf t).map Record.tag
    · rw [if_pos hm]
      rfl
    · rw [if_neg hm] at hended
      exact absurd hended hm

/-- What a walk without the sampler leaves of a member: ROUTED or CARRIED, its class, key and AMENDED as they were (R37, R39). -/
structure Record.Settled (old new : Record) : Prop where
  tag : new.tag = old.tag
  cls : new.cls = old.cls
  key : new.key = old.key
  amended : new.flags.amended = old.flags.amended
  state : new.state = .routed ∨ new.state = .carried

/-- A record after the walk of its cluster is settled, and any other stands. -/
theorem State.mem_walkedFrom {s : State} (hs : s.tableLaw) {t : Tag} {lead : Record} {audit : Bool} {start : Option RouteIx} {q' : Record}
    (h : q' ∈ (s.walkedFrom t lead audit start).tc.records) : ∃ q ∈ s.tc.records, (q.leaderTag = t → Record.Settled q q') ∧ (q.leaderTag ≠ t → q' = q) := by
  unfold State.walkedFrom at h
  generalize s.walkChain lead.stamp (s.membersOf t) start = walk at h
  obtain ⟨result, last⟩ := walk
  dsimp only at h
  have hseen : ∀ w : State, w.tc = (s.mapRecords (fun r => r.leaderTag == t) (Record.walked last audit)).tc → w.tableLaw := fun w hw => by
    rw [State.tableLaw, hw]
    exact State.withEach_tableLaw (ms := s.membersOf t) (f := Record.walked last audit) hs (fun _ => rfl) |> (State.mapRecords_leader (State.ownTags hs t) (Record.walked last audit) ▸ ·)
  have hcarry : ∀ (w : State) why, w.tc = (s.mapRecords (fun r => r.leaderTag == t) (Record.walked last audit)).tc → q' ∈ (w.carryCluster why t).tc.records →
      ∃ q ∈ s.tc.records, (q.leaderTag = t → Record.Settled q q') ∧ (q.leaderTag ≠ t → q' = q) := by
    intro w why hw hm
    obtain ⟨x, hx, rfl⟩ := State.mem_carryCluster (hseen w hw) hm
    rw [hw] at hx
    obtain ⟨q, hq, rfl⟩ := List.mem_map.mp hx
    refine ⟨q, hq, fun ht => ?_, fun ht => ?_⟩
    · rw [if_pos (beq_iff_eq.mpr ht), if_pos (by exact ht)]
      exact ⟨rfl, rfl, rfl, rfl, .inr rfl⟩
    · rw [if_neg (mt beq_iff_eq.mp ht), if_neg ht]
  cases result with
  | accepted o i f =>
    obtain ⟨x, hx, rfl⟩ := List.mem_map.mp h
    obtain ⟨q, hq, rfl⟩ := List.mem_map.mp hx
    refine ⟨q, hq, fun ht => ?_, fun ht => ?_⟩
    · rw [if_pos (beq_iff_eq.mpr ht), if_pos (beq_iff_eq.mpr (by exact ht))]
      exact ⟨rfl, rfl, rfl, rfl, .inl rfl⟩
    · rw [if_neg (mt beq_iff_eq.mp ht), if_neg (mt beq_iff_eq.mp ht)]
  | chainEnd => exact hcarry _ .chainEnd rfl h
  | noChain => exact hcarry _ .noChain rfl h
  | planCheck kind i => exact hcarry _ .planCheck (State.planCheck_tc _ _ _ _) h

/-! ### Amendments by the record's state -/

theorem State.canAmend_iff (s : State) (f : Pos) : s.canAmend f = true ↔ s.params.armMargin ≤ (f - s.bpu.position).toNat ∧ (f - s.bpu.position).toNat < 8388608 := by
  unfold State.canAmend atOrBeyond ahead
  rw [Bool.and_eq_true, decide_eq_true_iff, decide_eq_true_iff]
  exact and_comm

/-- A PENDING or CARRIED record is amended where it stands (R44). -/
theorem State.amend_free {s : State} (hs : s.tableLaw) {r : Record} (hr : r ∈ s.tc.records) (h : r.state = .pending ∨ r.state = .carried) (a : Amendment) :
    s.amend r a = some (s.withRecord r.tag (a.apply r)) := by
  unfold State.amend
  dsimp only
  obtain h | h := h <;> rw [h] <;> exact congrArg some ((s.mapRecords_tag r a.apply).trans (State.withEach_single hs hr a.apply))

/-- A DUE or FIRED record, and a ROUTED one too near its fire point, can no longer be amended (R45, R46). -/
theorem State.amend_late {s : State} {r : Record} (h : r.state = .due ∨ r.state = .fired ∨ (r.state = .routed ∧ ∃ route, r.route = some route
    ∧ ((route.firePoint - s.bpu.position).toNat < s.params.armMargin ∨ 8388608 ≤ (route.firePoint - s.bpu.position).toNat))) (a : Amendment) : s.amend r a = none := by
  unfold State.amend
  dsimp only
  obtain h | h | ⟨h, route, hroute, hnear⟩ := h
  · rw [h]
  · rw [h]
  · rw [h, hroute]
    refine if_neg ?_
    rw [State.canAmend_iff]
    omega

/-- A ROUTED record far enough from its fire point is amended with a walk of its cluster (R45, R83). -/
theorem State.amend_routed {s : State} {r : Record} {route : Route} (h : r.state = .routed) (hroute : r.route = some route)
    (hfar : s.params.armMargin ≤ (route.firePoint - s.bpu.position).toNat) (hahead : (route.firePoint - s.bpu.position).toNat < 8388608) (a : Amendment) :
    s.amend r a = some (((s.withdrawRoute r.leaderTag id).mapRecords (fun x => x.tag == r.tag) a.apply).walk .amendment r.leaderTag) := by
  unfold State.amend
  dsimp only
  rw [h, hroute]
  exact if_pos ((s.canAmend_iff route.firePoint).mpr ⟨hfar, hahead⟩)

/-! ### An amended cluster walked again -/

/-- The state from which an amended record's cluster is walked again (R45, R83). -/
def State.rewritten (s : State) (r : Record) (a : Amendment) : State := (s.withdrawRoute r.leaderTag id).mapRecords (fun x => x.tag == r.tag) a.apply

/-- A member of a cluster that is walked again because `r` is amended. -/
def Record.rewrite (r : Record) (a : Amendment) (q : Record) : Record := if q.tag = r.tag then a.apply (q.unrouted id) else q.unrouted id

theorem Record.rewrite_tag (r : Record) (a : Amendment) (q : Record) : (r.rewrite a q).tag = q.tag := by
  unfold Record.rewrite
  split <;> rfl

theorem Record.rewrite_leaderTag (r : Record) (a : Amendment) (q : Record) : (r.rewrite a q).leaderTag = q.leaderTag := by
  unfold Record.rewrite
  split <;> rfl

theorem State.rewritten_records {s : State} (hs : s.tableLaw) {r : Record} (hr : r ∈ s.tc.records) (a : Amendment) :
    (s.rewritten r a).tc.records = (s.withEach (s.membersOf r.leaderTag) (r.rewrite a)).tc.records := by
  unfold State.rewritten State.mapRecords State.setRecords State.withEach
  dsimp only
  rw [State.withdrawRoute_records]
  refine List.map_map.trans (List.map_congr_left fun q hq => ?_)
  simp only [Function.comp, beq_iff_eq]
  by_cases hm : q.leaderTag = r.leaderTag
  · rw [if_pos hm, if_pos ((State.mem_membersOf_tags hs hq).mpr hm)]
    rfl
  · rw [if_neg hm, if_neg fun h => hm ((State.mem_membersOf_tags hs hq).mp h), if_neg]
    exact fun e => hm (by rw [State.eq_of_tag hs hr hq e])

theorem State.rewritten_tableLaw {s : State} (hs : s.tableLaw) {r : Record} (hr : r ∈ s.tc.records) (a : Amendment) : (s.rewritten r a).tableLaw := by
  unfold State.tableLaw
  rw [State.rewritten_records hs hr]
  exact State.withEach_tableLaw hs (r.rewrite_tag a)

theorem State.rewritten_find {s : State} (hs : s.tableLaw) {r : Record} (hr : r ∈ s.tc.records) (a : Amendment) {l : Record} (hl : l ∈ s.tc.records)
    (hm : l.leaderTag = r.leaderTag) : (s.rewritten r a).find l.tag = some (r.rewrite a l) := by
  have h := State.find_withEach (s := s) (ms := s.membersOf r.leaderTag) (f := r.rewrite a) hs (r.rewrite_tag a) hl
  rw [if_pos ((State.mem_membersOf_tags hs hl).mpr hm)] at h
  unfold State.find at h ⊢
  rw [State.rewritten_records hs hr]
  exact h

/-- The walk of an amended record keeps what work keeps, and leaves the record amended (R45). -/
theorem State.rewritten_walk {s : State} (hs : s.tableLaw) {r : Record} (hr : r ∈ s.tc.records) (hc : r.cluster = none) (a : Amendment) :
    ∃ w : State, (s.rewritten r a).walk .amendment r.leaderTag = w ∧ Work w s ∧ w.aa = s.aa
      ∧ ∀ q' ∈ w.tc.records, q'.tag = r.tag → Record.Settled (a.apply (r.unrouted id)) q' := by
  have hself : r.leaderTag = r.tag := Record.leaderTag_of_leads (Record.leads_of_none hc)
  have hrewrite : r.rewrite a r = a.apply (r.unrouted id) := if_pos rfl
  have hwork : Work (s.rewritten r a) s :=
    (Work.amendWrite (s.withdrawRoute r.leaderTag id) r.tag a).trans (Work.withdrawRoute s r.leaderTag id (fun _ => rfl) (fun _ => id) (fun _ => id) fun _ => id)
  have hfound := State.rewritten_find hs hr a hr rfl
  rw [← hself] at hfound
  refine ⟨_, rfl, (Work.walk ..).trans hwork, ?_, fun q' hq' ht => ?_⟩
  · rw [(Paperwork.walk ..).aa, State.rewritten, (Paperwork.mapRecords ..).aa, (Paperwork.withdrawRoute ..).aa]
  · rw [State.walk_again (by decide) hfound] at hq'
    obtain ⟨q, hq, hin, hout⟩ := State.mem_walkedFrom (State.rewritten_tableLaw hs hr a) hq'
    have hqt : q.tag = r.tag := by
      by_cases h : q.leaderTag = r.leaderTag
      · exact (hin h).tag.symm.trans ht
      · rw [← hout h]
        exact ht
    have hq_eq : q = r.rewrite a r := by
      have hrw : r.rewrite a r ∈ (s.rewritten r a).tc.records := List.mem_of_find?_eq_some hfound
      exact State.eq_of_tag (State.rewritten_tableLaw hs hr a) hrw hq (by rw [hqt, Record.rewrite_tag])
    rw [← hrewrite, ← hq_eq]
    exact hin (by rw [hq_eq, Record.rewrite_leaderTag])

/-- The walk of an amended record's cluster, in the terms of the statements (R45, R83). -/
theorem State.booksLaw.amendsTo {s : State} (hs : s.booksLaw) {r : Record} (hr : r ∈ s.tc.records) (hstate : r.state = .routed) {route : Route} (hroute : r.route = some route)
    (hahead : s.endsAhead s.bpu.position (s.membersOf r.leaderTag)) (a : Amendment) : s.amendsTo route.outlet r (a.apply r) ((s.rewritten r a).walk .amendment r.leaderTag) := by
  obtain ⟨l, hl, hlt, hleads, -⟩ := hs.clustered.leader r hr
  have hself := Record.leaderTag_of_leads hleads
  have hbooked := hs.clustered.booked hr (.inl hstate) hroute
  have hnow : ∀ q ∈ s.tc.records, r.rewrite a q = { (if q.tag = r.tag then a.apply r else q) with state := .pending, route := none, waypoint := none } := by
    intro q hq
    unfold Record.rewrite
    split
    · next h =>
      rw [State.eq_of_tag hs.slots hr hq h]
      rfl
    · rfl
  have hstate : s.rewritten r a = ((s.withEach (s.membersOf r.leaderTag) (fun q => { (if q.tag = r.tag then a.apply r else q) with
      state := .pending, route := none, waypoint := none })).withOutlet route.outlet ((s.outlet route.outlet).without r.leaderTag (routeUnits (s.membersOf r.leaderTag)))).withLatches
        ((s.outlet route.outlet).emptiedBy (routeUnits (s.membersOf r.leaderTag))) := by
    have hrecords := State.rewritten_records hs.slots hr a
    rw [State.withEach_congr (f := r.rewrite a) rfl fun q hq _ => hnow q hq] at hrecords
    have hshape : s.rewritten r a = (s.withdrawRoute r.leaderTag id).setRecords (s.rewritten r a).tc.records := rfl
    rw [hshape, hrecords, State.withdrawRoute_booked hs.slots hbooked id]
    rfl
  have hfound := State.rewritten_find hs.slots hr a hl (hself.trans hlt)
  rw [hlt, hnow l hl] at hfound
  obtain ⟨m, hm⟩ : ∃ m, m = if l.tag = r.tag then a.apply r else l := ⟨_, rfl⟩
  rw [← hm] at hfound
  have haudit : m.flags.audit = l.flags.audit := by
    rw [hm]
    split
    · next h =>
      rw [State.eq_of_tag hs.slots hr hl h]
      rfl
    · rfl
  have htag : m.tag = r.leaderTag := by
    rw [hm, ← hlt]
    split
    · next h => exact h.symm
    · rfl
  have hmembers : (s.rewritten r a).membersOf r.leaderTag = (s.membersOf r.leaderTag).map (r.rewrite a) := by
    have h := s.membersOf_mapRecords_leader r.leaderTag (r.rewrite_leaderTag a)
    rw [State.mapRecords_leader (State.ownTags hs.slots _)] at h
    unfold State.membersOf at h ⊢
    rw [State.rewritten_records hs.slots hr]
    exact h
  have hbody : ((s.rewritten r a).membersOf r.leaderTag).map Record.body
      = ((s.membersOf r.leaderTag).map fun q => if q.tag = r.tag then a.apply r else q).map Record.body := by
    rw [hmembers, List.map_map, List.map_map]
    refine List.map_congr_left fun q hq => ?_
    simp only [Function.comp, hnow q (State.mem_membersOf.mp hq).1]
    rfl
  have hkept : ∀ q, (r.rewrite a q).route = none ∧ s.endPoint (r.rewrite a q) = s.endPoint q := fun q => by
    unfold Record.rewrite
    split <;> exact ⟨rfl, rfl⟩
  have hwalk := State.walkedFrom_walksTo (lead := m) (State.ownTags (State.rewritten_tableLaw hs.slots hr a) _) htag hbody
    (by
      rw [hmembers]
      rintro _ hm
      obtain ⟨q, -, rfl⟩ := List.mem_map.mp hm
      exact (hkept q).1)
    (by
      rw [hmembers, hstate]
      rintro _ hm
      obtain ⟨q, hq, rfl⟩ := List.mem_map.mp hm
      have h := hahead q hq
      rw [← (hkept q).2] at h
      exact h) false
    (if l.flags.audit = true ∧ (s.classEntry m.cls).auditHead ≠ none
      then (s.classEntry m.cls).auditHead else (s.classEntry m.cls).head)
  rw [State.walk_again (by decide) hfound]
  dsimp only
  rw [haudit]
  refine ⟨l, hl, hlt, ?_⟩
  rw [hstate, ← hlt] at hwalk ⊢
  subst hm
  exact hwalk

/-! ### Revisions and AMEND TRACK -/

/-- The newest record of a number (R157). -/
theorem State.newest {s : State} {r : Record} {n : Byte} {before after : List Record} (hrec : s.tc.records = before ++ r :: after) (hr : r.number = n)
    (hafter : ∀ q ∈ after, q.number ≠ n) : s.tc.records.reverse.find? (fun r => r.number == n) = some r := by
  have hnone : after.reverse.find? (fun r => r.number == n) = none := List.find?_eq_none.mpr fun q hq => by
    simpa using hafter q (List.mem_reverse.mp hq)
  rw [hrec, List.reverse_append, List.reverse_cons, List.append_assoc, List.find?_append, hnone]
  simp [hr]

/-- The amendment of a REVISE, and of AMEND TRACK, by its selections. -/
def amendmentOf (sc sk : Bool) (c : ClassNo) (k : KeyNo) : Amendment := { cls := if sc then some c else none, key := if sk then some k else none }

theorem amendmentOf_apply (sc sk : Bool) (c : ClassNo) (k : KeyNo) (r : Record) :
    (amendmentOf sc sk c k).apply r = { r with cls := if sc then c else r.cls, key := if sk then k else r.key, flags := { r.flags with amended := true } } := by
  cases sc <;> cases sk <;> rfl

/-- A REVISE that finds a record amends it, or changes nothing (R157). -/
theorem State.judgeRevise_newest {s : State} {r : Record} {n : Byte} {sc sk : Bool} {c : ClassNo} {k : KeyNo} (hsel : sc = true ∨ sk = true)
    (hfind : s.tc.records.reverse.find? (fun r => r.number == n) = some r) : s.judgeRevise n sc sk c k = (s.amend r (amendmentOf sc sk c k)).getD s := by
  unfold State.judgeRevise
  rw [if_neg (by obtain h | h := hsel <;> simp [h]), hfind]
  rfl

/-- Settles O34: the newest record of the number, by its state. -/
theorem reviseAmendsTheNewestRecordOfItsNumber : Obligations.ReviseAmendsTheNewestRecordOfItsNumber := by
  intro s u n sc sk c k hlink hu
  have hu : u = s.heard := hu
  subst hu
  rw [exec_revise_active hlink]
  refine ⟨fun h => ?_, fun r q before after hsel hrec hr hafter hs hq => ?_⟩
  · have hunmatched : s.heard.judgeRevise n sc sk c k = s.heard.countDevice .unmatched 1 := by
      unfold State.judgeRevise
      obtain ⟨hc, hk⟩ | hnone := h
      · rw [if_pos (by simp [hc, hk])]
      · have hfind : s.heard.tc.records.reverse.find? (fun r => r.number == n) = none := List.find?_eq_none.mpr fun q hq => by
          simpa using hnone q (List.mem_reverse.mp hq)
        rw [hfind]
        exact ite_self _
    rw [hunmatched]
    rfl
  · have hmem : r ∈ s.heard.tc.records := by
      rw [show s.heard.tc.records = _ from hrec]
      exact List.mem_append_right _ List.mem_cons_self
    rw [← amendmentOf_apply sc sk c k r] at hq
    rw [State.judgeRevise_newest hsel (State.newest (s := s.heard) hrec hr hafter)]
    refine ⟨fun h => ?_, fun h => ?_, fun route hstate hroute => ⟨fun hnear => ?_, fun hfar hahead hc => ?_, fun hfar hahead hbooks hends => ?_⟩⟩
    · rw [State.amend_free (s := s.heard) hs hmem h, hq]
      rfl
    · rw [State.amend_late (s := s.heard) (h.imp id .inl)]
      rfl
    · rw [State.amend_late (s := s.heard) (.inr (.inr ⟨hstate, route, hroute, hnear⟩))]
      rfl
    · obtain ⟨w, hw, hwork, haa, hrecords⟩ := State.rewritten_walk (s := s.heard) hs hmem hc (amendmentOf sc sk c k)
      refine ⟨w, ?_, hwork.keptByWork, hwork.bpu, haa, fun q' hq' ht => ?_⟩
      · rw [State.amend_routed (s := s.heard) hstate hroute hfar hahead, ← hw]
        rfl
      · obtain ⟨-, hcls, hkey, hamended, hst⟩ := hrecords q' hq' ht
        rw [hq]
        exact ⟨hcls, hkey, hamended, hst⟩
    · rw [hq]
      have hheard : s.heard.booksLaw := ⟨hbooks.slots, hbooks.routes, hbooks.carries, hbooks.members, hbooks.leaders, hbooks.committed, hbooks.fired, hbooks.due⟩
      refine ⟨_, ?_, hheard.amendsTo hmem hstate hroute hends (amendmentOf sc sk c k)⟩
      rw [State.amend_routed (s := s.heard) hstate hroute hfar hahead]
      rfl

/-- AMEND TRACK of a live record, up to the judgement of its state (R190). -/
theorem State.amendTrack_found {s : State} {tag : BitVec 16} {sel cb kb : Byte} {c : ClassNo} {k : KeyNo} {r : Record} {x : State × Response} (hs : s.tableLaw) (hr : r ∈ s.tc.records)
    (htag : r.slot.val * 16 + r.gen.toNat = tag.toNat) (hsel : sel.getLsbD 0 = true ∨ sel.getLsbD 1 = true) (hc : cb.toNat = c.val) (hk : kb.toNat = k.val)
    (hlate : s.amend r (amendmentOf (sel.getLsbD 0) (sel.getLsbD 1) c k) = none → x = (s, refuse .tooLate))
    (hdone : ∀ t, s.amend r (amendmentOf (sel.getLsbD 0) (sel.getLsbD 1) c k) = some t →
      (∀ r', t.find r.tag = some r' → x = (t, okWith (t.snapshot r'))) ∧ (t.find r.tag = none → x = ((t.freeBytes 28).1, okWith (t.freeBytes 28).2))) :
    s.amendTrack tag sel cb kb = x := by
  have hslot := r.slot.isLt
  have hgen := r.gen.isLt
  obtain ⟨name, hname⟩ := tagOf_some (tag := tag) (by omega)
  unfold State.amendTrack
  rw [hname, classOf_val hc, keyOf_val hk]
  dsimp only
  rw [if_neg (by obtain h | h := hsel <;> simp [h]), State.onTag_found hs hr htag]
  change (match s.amend r (amendmentOf (sel.getLsbD 0) (sel.getLsbD 1) c k) with
    | none => (s, refuse .tooLate)
    | some t => match t.find r.tag with
      | some r' => (t, okWith (t.snapshot r'))
      | none => ((t.freeBytes 28).1, okWith (t.freeBytes 28).2)) = x
  cases ha : s.amend r (amendmentOf (sel.getLsbD 0) (sel.getLsbD 1) c k) with
  | none => exact (hlate ha).symm
  | some t =>
    dsimp only
    cases hf : t.find r.tag with
    | none => exact ((hdone t ha).2 hf).symm
    | some r' => exact ((hdone t ha).1 r' hf).symm

theorem State.amendTrack_amended {s t : State} {tag : BitVec 16} {sel cb kb : Byte} {c : ClassNo} {k : KeyNo} {r r' : Record} (hs : s.tableLaw) (hr : r ∈ s.tc.records)
    (htag : r.slot.val * 16 + r.gen.toNat = tag.toNat) (hsel : sel.getLsbD 0 = true ∨ sel.getLsbD 1 = true) (hc : cb.toNat = c.val) (hk : kb.toNat = k.val)
    (ha : s.amend r (amendmentOf (sel.getLsbD 0) (sel.getLsbD 1) c k) = some t) (hf : t.find r.tag = some r') : s.amendTrack tag sel cb kb = (t, okWith (t.snapshot r')) := by
  refine State.amendTrack_found hs hr htag hsel hc hk (fun h => ?_) fun t' ht' => ?_
  · rw [ha] at h
    cases h
  · obtain rfl := Option.some.inj (ha.symm.trans ht')
    rw [hf]
    exact ⟨fun x h => (by cases h; rfl), fun h => by cases h⟩

/-- The records of a cluster walked again are live after it. -/
theorem State.amendsTo_live {s t : State} {o : OutletNo} {r : Record} {a : Amendment} (h : s.amendsTo o r (a.apply r) t) :
    t.tc.records.map Record.tag = s.tc.records.map Record.tag := by
  obtain ⟨l, -, -, hwalk⟩ := h
  obtain ⟨f, hf, htc⟩ := State.walksTo_records hwalk
  rw [htc]
  refine (State.withEach_tags fun q => (hf q).tag).trans (State.withEach_tags (s := s) fun q => ?_)
  by_cases h : q.tag = r.tag
  · simp only [h, if_true]
    rfl
  · simp only [h, if_false]
    rfl

/-- Settles O53: the refusals in their order, and the amendment by the state of the record. -/
theorem amendTrackChangesWhatCanStillBeChanged : Obligations.AmendTrackChangesWhatCanStillBeChanged := by
  intro s tag sel cb kb hhold
  have hexec {t : State} {r : Response} (h : s.amendTrack tag sel cb kb = (t, r)) : exec (.amendTrack tag sel cb kb) s = .next (t.answered (.amendTrack tag sel cb kb) r) :=
    exec_served (body := fun s => s.amendTrack tag sel cb kb) rfl hhold h
  refine ⟨fun h => hexec ?_, fun htag hsel c k hc hk => ⟨fun hnone => hexec ?_, fun r q hr hrt hs hq => ?_⟩⟩
  · unfold State.amendTrack
    by_cases htag : 4095 < tag.toNat
    · rw [tagOf_none htag]
      rfl
    · obtain ⟨name, hname⟩ := tagOf_some (Nat.le_of_not_lt htag)
      rw [hname]
      dsimp only
      by_cases hsel : sel.getLsbD 0 = false ∧ sel.getLsbD 1 = false
      · rw [if_pos hsel]
        rfl
      · rw [if_neg hsel]
        obtain h | h | h | h := h
        · exact absurd h htag
        · exact absurd h hsel
        · rw [classOf_none h]
          rfl
        · rw [keyOf_none h]
          cases classOf cb <;> rfl
  · obtain ⟨name, hname⟩ := tagOf_some htag
    unfold State.amendTrack
    rw [hname, classOf_val hc, keyOf_val hk]
    dsimp only
    rw [if_neg (by obtain h | h := hsel <;> simp [h]), State.onTag_not_found htag hnone]
    rfl
  · rw [← amendmentOf_apply (sel.getLsbD 0) (sel.getLsbD 1) c k r] at hq
    generalize ha : amendmentOf (sel.getLsbD 0) (sel.getLsbD 1) c k = a at hq
    refine ⟨fun h => hexec ?_, fun h => hexec ?_, fun route hstate hroute hfar hahead hcl => ?_, fun route hstate hroute hfar hahead hbooks hends => ?_⟩
    · have hfree := State.amend_free hs hr h a
      have hfound : (s.withRecord r.tag q).find r.tag = some q := by
        have h := State.find_withEach (s := s) (ms := [r]) (f := a.apply) hs (fun _ => rfl) hr
        rw [if_pos (List.mem_map_of_mem (List.mem_singleton_self r)), State.withEach_single hs hr, ← hq] at h
        exact h
      rw [← hq] at hfree
      exact State.amendTrack_amended hs hr hrt hsel hc hk (by rw [ha]; exact hfree) hfound
    · have hlate := State.amend_late h a
      refine State.amendTrack_found hs hr hrt hsel hc hk (fun _ => rfl) fun t ht => ?_
      rw [ha, hlate] at ht
      cases ht
    · obtain ⟨w, hw, hwork, haa, hrecords⟩ := State.rewritten_walk hs hr hcl a
      have hamend : s.amend r a = some w := by
        rw [State.amend_routed hstate hroute hfar hahead, ← hw]
        rfl
      have hws : w.tableLaw := hwork.records.tableLaw hs
      cases hf : w.find r.tag with
      | none =>
        refine ⟨(w.freeBytes 28).1, (w.freeBytes 28).2, hexec ?_, hwork.bpu, haa, fun q' hq' ht => absurd ht (State.find_none_iff.mp hf q' hq')⟩
        refine State.amendTrack_found hs hr hrt hsel hc hk (fun h => ?_) fun t ht => ?_
        · rw [ha, hamend] at h
          cases h
        · rw [ha, hamend] at ht
          cases ht
          rw [hf]
          exact ⟨fun r' h => (by cases h), fun _ => rfl⟩
      | some r' =>
        refine ⟨w, w.snapshot r', hexec ?_, hwork.bpu, haa, fun q' hq' ht => ?_⟩
        · exact State.amendTrack_amended hs hr hrt hsel hc hk (by rw [ha]; exact hamend) hf
        · have hfound := State.find_tag hws hq'
          rw [ht, hf] at hfound
          obtain ⟨-, hcls, hkey, hamended, hst⟩ := hrecords q' hq' ht
          rw [hq]
          exact ⟨by rw [Option.some.inj hfound], hcls, hkey, hamended, hst⟩
    · have hto := hbooks.amendsTo hr hstate hroute hends a
      generalize hw : (s.rewritten r a).walk .amendment r.leaderTag = w at hto
      have hamend : s.amend r a = some w := by
        rw [State.amend_routed hstate hroute hfar hahead, ← hw]
        rfl
      have htags := State.amendsTo_live hto
      obtain ⟨r', hr', ht⟩ : ∃ r' ∈ w.tc.records, r'.tag = r.tag := by
        have hmem : r.tag ∈ w.tc.records.map Record.tag := by
          rw [htags]
          exact List.mem_map_of_mem hr
        exact List.mem_map.mp hmem
      have hfound := State.find_tag (State.tableLaw_of_tags htags hs) hr'
      rw [ht] at hfound
      refine ⟨w, r', by rw [hq]; exact hto, hr', ht, hexec ?_⟩
      exact State.amendTrack_amended hs hr hrt hsel hc hk (by rw [ha]; exact hamend) hfound

end Sys2Proof.Machine
end

section
/-! PROOFS. Fire requests: one asked, one granted, one abandoned, each by one equation. -/

namespace Sys2Proof.Machine

/-! ### Grants that alone can come about -/

/-- At a full budget a grant decision does nothing (R122). -/
theorem State.grantDecision_full {s : State} (h : s.params.airBudget ≤ s.aa.slotsInUse) : s.grantDecision = s := if_pos h

theorem State.grantUpTo_idle {s : State} (h : ∀ o, ¬s.canGrant o) : ∀ n, s.grantUpTo n = s
  | 0 => rfl
  | n + 1 => by
    have hb := State.pickGrant_best s
    have hnone : s.pickGrant = none := by
      cases hp : s.pickGrant with
      | none => rfl
      | some o =>
        rw [hp] at hb
        exact absurd hb.2.1 (h o)
    unfold State.grantUpTo
    rw [hnone]
    exact ite_self _

/-- With a free slot and one request alone that can be granted, a grant decision is its grant (R122). -/
theorem State.grantDecision_only {s : State} {o : OutletNo} (hcan : s.canGrant o) (honly : ∀ b, s.canGrant b → b = o) (hfree : s.aa.slotsInUse < s.params.airBudget) :
    s.grantDecision = s.grant o := by
  have hb := State.pickGrant_best s
  have hpick : s.pickGrant = some o := by
    cases hp : s.pickGrant with
    | none =>
      rw [hp] at hb
      exact absurd hcan (hb o (mem_outletNos o))
    | some b =>
      rw [hp] at hb
      rw [honly b hb.2.1]
  have hafter : ∀ b, ¬(s.grant o).canGrant b := by
    rintro b ⟨hreq, hidle, hset⟩
    have hout := State.granted_of_grant hcan b
    split at hout
    · rw [hout, Outlet.granted_busy hcan.1] at hidle
      cases hidle
    · next hne =>
      rw [hout] at hreq hidle hset
      exact hne (honly b ⟨hreq, hidle, hset⟩).symm
  unfold State.grantDecision State.grantUpTo
  rw [if_neg (Nat.not_le.mpr hfree), hpick]
  exact State.grantUpTo_idle hafter 15

/-! ### The late limit set after the grants -/

/-- The late limit of a cluster's members that are still DUE (R29, R118). -/
def State.limited (s : State) (t : Tag) (late : Pos) : State := s.mapRecords (fun m => m.leaderTag == t && m.state == .due) (Record.become .due (some late))

/-- The late limit is set alike before a grant and after it. -/
theorem State.limited_grant (s : State) (t : Tag) (late : Pos) (o : OutletNo) : (s.limited t late).grant o = (s.grant o).limited t late := by
  unfold State.grant
  rw [show (s.limited t late).outlet o = s.outlet o from rfl]
  cases (s.outlet o).request with
  | none => rfl
  | some w =>
    cases w with
    | test => rfl
    | deadline members l units =>
      refine congrArg (State.setRecords { (s.modOutlet o fun x => x.startStroke.holdSet members units).countOutlet o .strokes 1 with aa := { slotsInUse := s.aa.slotsInUse + 1 } }) ?_
      refine List.map_map.trans ((List.map_congr_left fun r _ => ?_).trans List.map_map.symm)
      simp only [Function.comp]
      by_cases hm : members.contains r.tag = true
      · have hleft : members.contains (if (r.leaderTag == t && r.state == .due) = true then r.become .due (some late) else r).tag = true := by
          split <;> exact hm
        have hfired : ¬((r.become .fired none).leaderTag == t && (r.become .fired none).state == .due) = true := by simp [Record.become]
        rw [if_pos hleft, if_pos hm, if_neg hfired]
        split <;> rfl
      · have hleft : ¬members.contains (if (r.leaderTag == t && r.state == .due) = true then r.become .due (some late) else r).tag = true := by
          split <;> exact hm
        rw [if_neg hleft, if_neg hm]

theorem State.limited_grantDecision (s : State) (t : Tag) (late : Pos) : (s.limited t late).grantDecision = s.grantDecision.limited t late := by
  have hupTo : ∀ n (s : State), (s.limited t late).grantUpTo n = (s.grantUpTo n).limited t late := by
    intro n
    induction n with
    | zero => exact fun _ => rfl
    | succ n ih =>
      intro s
      unfold State.grantUpTo
      rw [show (s.limited t late).pickGrant = s.pickGrant from rfl]
      by_cases hfull : s.params.airBudget ≤ s.aa.slotsInUse
      · rw [if_pos hfull, if_pos (by exact hfull)]
      · rw [if_neg hfull, if_neg (by exact hfull)]
        cases s.pickGrant with
        | none => rfl
        | some o =>
          dsimp only
          rw [State.limited_grant, ih]
  exact hupTo 16 s

/-! ### A request asked or abandoned -/

/-- A cluster at its fire point, whose request waits with its late limit (R29, R118). -/
def State.asked (s : State) (o : OutletNo) (ms : List Record) (late : Pos) : State :=
  (s.withEach ms (fun q => { q with state := .due, waypoint := some late })).withOutlet o { s.outlet o with request := some (.deadline (ms.map Record.tag) late (routeUnits ms)) }

/-- A cluster whose request is abandoned (R119). -/
def State.abandoned (s : State) (o : OutletNo) (t : Tag) (ms : List Record) (why : CarryReason) : State :=
  (((s.withEach ms (s.ride why)).withOutlet o ((s.outlet o).without t (routeUnits ms))).withOutletTally o
    { vget s.tau.outlets o with abandoned := min 16777215 ((vget s.tau.outlets o).abandoned + 1) }).withLatches ((s.outlet o).emptiedBy (routeUnits ms))

theorem State.countAbandoned_eq {s : State} (hs : s.tableLaw) {o : OutletNo} {t : Tag} {ms : List Record} (h : s.BookedAt o t ms) (why : CarryReason)
    (hahead : s.endsAhead s.bpu.position ms) : (s.countOutlet o .abandoned 1).carryCluster why t = s.abandoned o t ms why := by
  rw [State.carryCluster_booked (s := s.countOutlet o .abandoned 1) hs ⟨h.members, h.nonempty, h.routed, h.waits⟩ why hahead]
  rfl

/-- A late limit reached: the request is abandoned with FIRE_LATE (R119). -/
theorem State.abandonLate_eq {s : State} (hs : s.tableLaw) {o : OutletNo} {t : Tag} {ms : List Record} (h : s.BookedAt o t ms) (hahead : s.endsAhead s.bpu.position ms) :
    s.abandonLate t = s.abandoned o t ms .fireLate := by
  rw [← State.countAbandoned_eq hs h .fireLate hahead]
  obtain ⟨r, rest, hms⟩ := List.exists_cons_of_ne_nil h.nonempty
  obtain ⟨route, hroute, rfl⟩ := h.routed r (hms ▸ List.mem_cons_self)
  unfold State.abandonLate
  rw [h.members, hms]
  dsimp only
  rw [hroute]

/-- A fire point reached where another request waits: the cluster's own is abandoned with PADDLE_BUSY (R119). -/
theorem State.fireCluster_busy {s : State} (hs : s.tableLaw) {o : OutletNo} {t : Tag} {ms : List Record} (h : s.BookedAt o t ms) (hahead : s.endsAhead s.bpu.position ms)
    (hbusy : (s.outlet o).request ≠ none) : s.fireCluster t = s.abandoned o t ms .paddleBusy := by
  rw [← State.countAbandoned_eq hs h .paddleBusy hahead]
  obtain ⟨r, rest, hms⟩ := List.exists_cons_of_ne_nil h.nonempty
  obtain ⟨route, hroute, rfl⟩ := h.routed r (hms ▸ List.mem_cons_self)
  obtain ⟨w, hw⟩ := Option.ne_none_iff_exists'.mp hbusy
  unfold State.fireCluster
  rw [h.members, hms]
  dsimp only
  rw [hroute]
  dsimp only
  rw [hw]

/-- A fire point reached where no request waits: the cluster's own waits, and an IDLE paddle that holds no set has a grant decision (R118, R122). -/
theorem State.fireCluster_asks {s : State} (hs : s.tableLaw) {o : OutletNo} {t : Tag} {ms : List Record} (h : s.BookedAt o t ms) {fire : Pos}
    (hpoint : ∀ r ∈ ms, ∀ route, r.route = some route → route.firePoint = fire) (hfree : (s.outlet o).request = none) {late : Pos}
    (hlate : late = plus fire (s.outlet o).fields.lateTolerance) :
    s.fireCluster t = if (s.outlet o).paddle = .idle ∧ (s.outlet o).strokeSet = none then (s.asked o ms late).grantDecision else s.asked o ms late := by
  obtain ⟨r, rest, hms⟩ := List.exists_cons_of_ne_nil h.nonempty
  have hr : r ∈ ms := hms ▸ List.mem_cons_self
  obtain ⟨route, hroute, rfl⟩ := h.routed r hr
  obtain ⟨v, hv⟩ : ∃ v, v = (s.modOutlet route.outlet (fun x => { x with request := some (.deadline (ms.map Record.tag) late (routeUnits ms)) })).mapRecords
      (fun m => m.leaderTag == t) (Record.become .due none) := ⟨_, rfl⟩
  have hasked : v.limited t late = s.asked route.outlet ms late := by
    rw [hv, ← h.members]
    refine congrArg (State.setRecords (s.modOutlet route.outlet _)) (List.map_map.trans (List.map_congr_left fun q hq => ?_))
    simp only [Function.comp]
    by_cases hm : q.leaderTag = t
    · rw [if_pos (beq_iff_eq.mpr hm), if_pos ((State.mem_membersOf_tags hs hq).mpr hm), if_pos]
      · rfl
      · rw [show (q.become .due none).leaderTag = q.leaderTag from rfl, hm]
        simp [Record.become]
    · rw [if_neg (mt beq_iff_eq.mp hm), if_neg (mt (State.mem_membersOf_tags hs hq).mp hm), if_neg (by simp [hm])]
  have heligible : (v.outlet route.outlet).eligible = true ↔ (s.outlet route.outlet).paddle = .idle ∧ (s.outlet route.outlet).strokeSet = none := by
    have hout : v.outlet route.outlet = { s.outlet route.outlet with request := some (.deadline (ms.map Record.tag) late (routeUnits ms)) } := by
      rw [hv]
      exact State.outlet_modOutlet_self s route.outlet fun x => { x with request := some (.deadline (ms.map Record.tag) late (routeUnits ms)) }
    rw [hout]
    simp [Outlet.eligible]
  have hfire : s.fireCluster t = (if (v.outlet route.outlet).eligible = true then v.grantDecision else v).limited t late := by
    have hfp := hpoint r hr route hroute
    unfold State.fireCluster
    rw [h.members, hms]
    dsimp only
    rw [hroute]
    dsimp only
    rw [hfree]
    dsimp only
    rw [hfp, ← hlate, ← hms, hv]
    rfl
  rw [hfire]
  by_cases he : (v.outlet route.outlet).eligible = true
  · rw [if_pos he, if_pos (heligible.mp he), ← State.limited_grantDecision, hasked]
  · rw [if_neg he, if_neg (mt heligible.mpr he), hasked]

/-! ### What is left at the position -/

/-- No record in a state has its waypoint at a position. -/
def State.NoneAt (s : State) (st : RecordState) (p : Pos) : Prop := ∀ r ∈ s.tc.records, r.state = st → r.waypoint ≠ some p

theorem State.reachKind_quiet {s : State} {st : RecordState} {p : Pos} (h : s.NoneAt st p) (act : State → Tag → State) : s.reachKind st p act = s :=
  State.reachKind_of_no h act

/-- Where the records at a position are all in one state, no other kind is there. -/
theorem State.noneAt_of_only {s : State} {ms : List Record} {st : RecordState} {p : Pos} (honly : ∀ q ∈ s.tc.records, q.waypoint = some p → q ∈ ms)
    (hstate : ∀ q ∈ ms, q.state = st) {st' : RecordState} (hne : st' ≠ st) : s.NoneAt st' p :=
  fun r hr hs hw => hne (hs.symm.trans (hstate r (honly r hr hw)))

/-- After the cluster at a position is abandoned, only CARRIED records can be there. -/
theorem State.abandoned_noneAt {s : State} {o : OutletNo} {t : Tag} {ms : List Record} {why : CarryReason} {p : Pos} (honly : ∀ q ∈ s.tc.records, q.waypoint = some p → q ∈ ms)
    {st : RecordState} (hne : st ≠ .carried) : (s.abandoned o t ms why).NoneAt st p := by
  intro r hr hs hw
  obtain ⟨q, hq, rfl⟩ := List.mem_map.mp hr
  by_cases hm : q.tag ∈ ms.map Record.tag
  · rw [if_pos hm] at hs
    exact hne hs.symm
  · rw [if_neg hm] at hw
    exact hm (List.mem_map_of_mem (honly q hq hw))

theorem plus_ne {p : Pos} {d : Nat} (h : 0 < d) (h' : d ≤ 255) : plus p d ≠ p := by
  unfold plus
  intro e
  have := congrArg BitVec.toNat e
  rw [BitVec.toNat_add, BitVec.toNat_ofNat] at this
  omega

theorem plus_zero (p : Pos) : plus p 0 = p := by
  unfold plus
  exact BitVec.add_zero p

/-- A record FIRED (R126). -/
def Record.fire (r : Record) : Record := { r with state := .fired, waypoint := none }

/-- A record after its cluster's request is asked (R29, R118). -/
def Record.asking (ms : List Record) (late : Pos) (q : Record) : Record := if q.tag ∈ ms.map Record.tag then { q with state := .due, waypoint := some late } else q

/-- A record after the request is asked and the requests of these tags are granted. -/
def Record.askedOrFired (ms : List Record) (late : Pos) (fired : Tag → Prop) [DecidablePred fired] (q : Record) : Record :=
  if fired q.tag then (q.asking ms late).fire else q.asking ms late

theorem Record.asking_tag (ms : List Record) (late : Pos) (q : Record) : (q.asking ms late).tag = q.tag := by
  unfold Record.asking
  split <;> rfl

theorem Record.askedOrFired_tag (ms : List Record) (late : Pos) (fired : Tag → Prop) [DecidablePred fired] (q : Record) : (q.askedOrFired ms late fired).tag = q.tag := by
  unfold Record.askedOrFired
  split <;> exact q.asking_tag ms late

theorem Record.askedOrFired_leaderTag (ms : List Record) (late : Pos) (fired : Tag → Prop) [DecidablePred fired] (q : Record) :
    (q.askedOrFired ms late fired).leaderTag = q.leaderTag := by
  unfold Record.askedOrFired Record.asking
  split <;> split <;> rfl

/-- A cluster at its fire point, alone at the position. -/
structure State.FiresAlone (u : State) (o : OutletNo) (t : Tag) (ms : List Record) : Prop where
  table : u.tableLaw
  booked : u.BookedAt o t ms
  only : ∀ q ∈ u.tc.records, q.waypoint = some u.bpu.position → q ∈ ms
  ahead : u.endsAhead u.bpu.position ms

/-- A state after a cluster's request is asked and the requests of some tags are granted. -/
structure State.AskedWith (v u : State) (ms : List Record) (late : Pos) (fired : Tag → Prop) [DecidablePred fired] : Prop where
  records : v.tc.records = u.tc.records.map (Record.askedOrFired ms late fired)
  bpu : v.bpu = u.bpu
  params : v.params = u.params

section
variable {v u : State} {o : OutletNo} {t : Tag} {ms : List Record} {late : Pos} {fired : Tag → Prop} [DecidablePred fired]

/-- With its members FIRED, or its late limit ahead, nothing more comes of the tick that has reached the fire point (R29). -/
theorem State.AskedWith.rest (h : v.AskedWith u ms late fired) (hu : u.FiresAlone o t ms) (hdone : (∀ q ∈ ms, fired q.tag) ∨ late ≠ u.bpu.position) :
    (v.reachKind .pending u.bpu.position State.decisionWalk).reachKind .due u.bpu.position State.abandonLate = v := by
  have hnone : ∀ st, v.NoneAt st u.bpu.position := by
    intro st r hr hs hw
    rw [h.records] at hr
    obtain ⟨q, hq, rfl⟩ := List.mem_map.mp hr
    unfold Record.askedOrFired at hw
    by_cases hf : fired q.tag
    · rw [if_pos hf] at hw
      cases hw
    · rw [if_neg hf] at hw
      unfold Record.asking at hw
      by_cases hm : q.tag ∈ ms.map Record.tag
      · rw [if_pos hm] at hw
        obtain hdone | hdone := hdone
        · obtain ⟨m, hms, hmt⟩ := List.mem_map.mp hm
          exact hf (hmt ▸ hdone m hms)
        · exact hdone (Option.some.inj hw)
      · rw [if_neg hm] at hw
        exact hm (List.mem_map_of_mem (hu.only q hq hw))
  rw [State.reachKind_quiet (hnone .pending), State.reachKind_quiet (hnone .due)]

theorem State.AskedWith.table (h : v.AskedWith u ms late fired) (hu : u.tableLaw) : v.tableLaw := by
  refine State.tableLaw_of_tags ?_ hu
  rw [h.records, List.map_map]
  exact List.map_congr_left fun q _ => q.askedOrFired_tag ms late fired

/-- A request that is not granted leaves its cluster booked, DUE at its late limit. -/
theorem State.AskedWith.booked (h : v.AskedWith u ms late fired) (hu : u.BookedAt o t ms) (hleft : ∀ q ∈ ms, ¬fired q.tag) :
    v.BookedAt o t (ms.map (Record.asking ms late)) := by
  have hasking : ∀ q ∈ ms, q.asking ms late = { q with state := .due, waypoint := some late } := fun q hq => if_pos (List.mem_map_of_mem hq)
  refine ⟨?_, ?_, ?_, ?_⟩
  · rw [State.membersOf_of_map h.records (Record.askedOrFired_leaderTag ms late fired), hu.members]
    exact List.map_congr_left fun q hq => if_neg (hleft q hq)
  · simpa using hu.nonempty
  · rintro _ hr
    obtain ⟨q, hq, rfl⟩ := List.mem_map.mp hr
    rw [hasking q hq]
    exact hu.routed q hq
  · rintro _ hr
    obtain ⟨q, hq, rfl⟩ := List.mem_map.mp hr
    rw [hasking q hq]
    exact .inr rfl

theorem routeUnits_asking (ms ns : List Record) (late : Pos) : routeUnits (ms.map (Record.asking ns late)) = routeUnits ms := by
  unfold routeUnits
  rw [List.map_map]
  refine congrArg List.sum (List.map_congr_left fun q _ => ?_)
  simp only [Function.comp, Record.asking]
  split <;> rfl

theorem tags_asking (ms ns : List Record) (late : Pos) : (ms.map (Record.asking ns late)).map Record.tag = ms.map Record.tag := by
  rw [List.map_map]
  exact List.map_congr_left fun q _ => q.asking_tag ns late

theorem State.abandoned_asking (v : State) (o : OutletNo) (t : Tag) (ms ns : List Record) (late : Pos) (why : CarryReason) :
    v.abandoned o t (ms.map (Record.asking ns late)) why = v.abandoned o t ms why := by
  unfold State.abandoned
  rw [routeUnits_asking, State.withEach_congr (tags_asking ms ns late) fun _ _ _ => rfl]

/-- A late tolerance of 0 abandons a request that is not granted with the tick that has asked it (R29, R119). -/
theorem State.AskedWith.abandons (h : v.AskedWith u ms late fired) (hu : u.FiresAlone o t ms) (hleft : ∀ q ∈ ms, ¬fired q.tag) (hlate : late = u.bpu.position) :
    (v.reachKind .pending u.bpu.position State.decisionWalk).reachKind .due u.bpu.position State.abandonLate = v.abandoned o t ms .fireLate := by
  have hmember : ∀ q : Record, q.tag ∈ ms.map Record.tag → q.askedOrFired ms late fired = { q with state := .due, waypoint := some late } := by
    intro q hm
    obtain ⟨m, hms, hmt⟩ := List.mem_map.mp hm
    unfold Record.askedOrFired Record.asking
    rw [if_neg (hmt ▸ hleft m hms), if_pos hm]
  have hother : ∀ r ∈ v.tc.records, r.waypoint = some u.bpu.position → r.leaderTag = t ∧ r.state = .due := by
    intro r hr hw
    rw [h.records] at hr
    obtain ⟨q, hq, rfl⟩ := List.mem_map.mp hr
    by_cases hm : q.tag ∈ ms.map Record.tag
    · rw [Record.askedOrFired_leaderTag, hmember q hm]
      rw [← hu.booked.members] at hm
      exact ⟨(State.mem_membersOf_tags hu.table hq).mp hm, rfl⟩
    · unfold Record.askedOrFired Record.asking at hw
      rw [if_neg hm] at hw
      split at hw
      · cases hw
      · exact absurd (List.mem_map_of_mem (hu.only q hq hw)) hm
  have hone : ∃ r ∈ v.tc.records, r.leaderTag = t ∧ r.state = .due ∧ r.waypoint = some u.bpu.position := by
    obtain ⟨m, rest, hms⟩ := List.exists_cons_of_ne_nil hu.booked.nonempty
    have hm : m ∈ ms := hms ▸ List.mem_cons_self
    have hmem := hm
    rw [← hu.booked.members, State.mem_membersOf] at hmem
    refine ⟨m.askedOrFired ms late fired, ?_, ?_, ?_⟩
    · rw [h.records]
      exact List.mem_map_of_mem hmem.1
    · rw [Record.askedOrFired_leaderTag]
      exact hmem.2
    · rw [hmember m (List.mem_map_of_mem hm), hlate]
      exact ⟨rfl, rfl⟩
  have hbooked := h.booked hu.booked hleft
  have hahead : v.endsAhead v.bpu.position (ms.map (Record.asking ms late)) := by
    rintro _ hr
    obtain ⟨q, hq, rfl⟩ := List.mem_map.mp hr
    have hq := hu.ahead q hq
    unfold State.endPoint Record.asking at *
    rw [h.bpu, h.params]
    split <;> exact hq
  have hpending : v.NoneAt .pending u.bpu.position := fun r hr hs hw => by
    rw [(hother r hr hw).2] at hs
    cases hs
  rw [State.reachKind_quiet hpending, State.reachKind_one hone fun r hr _ hw => (hother r hr hw).1, State.abandonLate_eq (h.table hu.table) hbooked hahead,
    State.abandoned_asking]

end

end Sys2Proof.Machine
end

section
/-! PROOFS. Fire points and late limits: what a forward tick makes of the cluster that alone has reached one. -/

namespace Sys2Proof.Machine

/-! ### A request asked, before any grant -/

theorem State.outlet_asked (s : State) (o : OutletNo) (ms : List Record) (late : Pos) (j : OutletNo) :
    (s.asked o ms late).outlet j = if o = j then { s.outlet o with request := some (.deadline (ms.map Record.tag) late (routeUnits ms)) } else s.outlet j :=
  State.outlet_setOutlet (s.withEach ms fun q => { q with state := .due, waypoint := some late }) o j _

/-- The records of a request asked. -/
theorem State.asked_records (u : State) (o : OutletNo) (ms : List Record) (late : Pos) : (u.asked o ms late).tc.records = u.tc.records.map (Record.asking ms late) := rfl

theorem State.asked_askedWith (u : State) (o : OutletNo) (ms : List Record) (late : Pos) : (u.asked o ms late).AskedWith u ms late (fun _ => False) where
  records := List.map_congr_left fun _ _ => (if_neg not_false).symm
  bpu := rfl
  params := rfl

/-- A request asked and granted, others perhaps with it. -/
theorem State.granted_askedWith {v u : State} {o : OutletNo} {ms : List Record} {late : Pos} {g : List OutletNo} (h : GrantDecision v (u.asked o ms late) g) :
    v.AskedWith u ms late (fun t => ∃ j ∈ g, t ∈ ((u.asked o ms late).outlet j).requestMembers) where
  records := by
    rw [h.records, State.asked_records, List.map_map]
    refine List.map_congr_left fun q _ => ?_
    unfold Record.askedOrFired
    simp only [Function.comp, q.asking_tag]
    rfl
  bpu := by rw [h.rest]; rfl
  params := by rw [h.rest]; rfl

/-- A request that is abandoned as soon as it is asked leaves no trace of it (R119). -/
theorem State.asked_abandoned {u : State} {o : OutletNo} {t : Tag} {ms : List Record} (hfree : (u.outlet o).request = none) (ht : t ∈ ms.map Record.tag) (late : Pos) (why : CarryReason) :
    (u.asked o ms late).abandoned o t ms why = u.abandoned o t ms why := by
  have hout := (u.outlet_asked o ms late o).trans (if_pos rfl)
  have hwithout : ((u.asked o ms late).outlet o).without t (routeUnits ms) = (u.outlet o).without t (routeUnits ms) := by
    rw [hout]
    unfold Outlet.without Outlet.requestMembers
    dsimp only
    rw [if_pos ht, hfree]
    simp [Outlet.less]
  have hempty : ((u.asked o ms late).outlet o).emptiedBy (routeUnits ms) = (u.outlet o).emptiedBy (routeUnits ms) := by
    rw [hout]
    rfl
  have hride : (u.asked o ms late).withEach ms ((u.asked o ms late).ride why)
      = (u.withEach ms (u.ride why)).setOutlet o { u.outlet o with request := some (.deadline (ms.map Record.tag) late (routeUnits ms)) } := by
    have htwice := State.withEach_withEach (s := u) (ms := ms) (f := fun q => { q with state := .due, waypoint := some late }) (g := u.ride why) rfl fun _ => rfl
    exact (congrArg (fun w : State => w.setOutlet o { u.outlet o with request := some (.deadline (ms.map Record.tag) late (routeUnits ms)) }) htwice :)
  unfold State.abandoned
  rw [hwithout, hempty, hride, State.withOutlet_eq, State.setOutlet_setOutlet]
  rfl

/-- A cluster's own request granted (R113, R126). -/
theorem State.asked_grant {u : State} {o : OutletNo} (hfree : (u.outlet o).request = none) (ms : List Record) (late : Pos) :
    (u.asked o ms late).grant o = { ((u.withEach ms (fun q => { q with state := .fired, waypoint := none })).withOutlet o
        { u.outlet o with
          paddle := .stroke
          strokeTimer := 0
          strokeFigure := (u.outlet o).fields.strokeTime
          strokeSet := some { members := ms.map Record.tag, units := routeUnits ms }
          confirmTimer := 0
          windowFigure := (u.outlet o).fields.confirmWindow
          latest := if ∃ l, (u.outlet o).latest = some l ∧ l.owner ∈ ms.map Record.tag then none else (u.outlet o).latest }).withOutletTally o
        { vget u.tau.outlets o with strokes := min 16777215 ((vget u.tau.outlets o).strokes + 1) } with
      aa := { slotsInUse := u.aa.slotsInUse + 1 } } := by
  have hout := (u.outlet_asked o ms late o).trans (if_pos rfl)
  have hreq : ((u.asked o ms late).outlet o).request = some (.deadline (ms.map Record.tag) late (routeUnits ms)) := by rw [hout]
  have hheld : (((u.asked o ms late).outlet o).startStroke.holdSet (ms.map Record.tag) (routeUnits ms)) = { u.outlet o with
      paddle := .stroke
      strokeTimer := 0
      strokeFigure := (u.outlet o).fields.strokeTime
      strokeSet := some { members := ms.map Record.tag, units := routeUnits ms }
      confirmTimer := 0
      windowFigure := (u.outlet o).fields.confirmWindow
      latest := if ∃ l, (u.outlet o).latest = some l ∧ l.owner ∈ ms.map Record.tag then none else (u.outlet o).latest } := by
    rw [hout]
    unfold Outlet.holdSet Outlet.startStroke
    dsimp only
    congr 1
    · cases (u.outlet o).latest with
      | none => simp
      | some l => simp
    · exact hfree.symm
  have hrecords : (u.asked o ms late).tc.records.map (fun r => if (ms.map Record.tag).contains r.tag = true then r.become .fired none else r)
      = (u.withEach ms (fun q => { q with state := .fired, waypoint := none })).tc.records := by
    refine List.map_map.trans (List.map_congr_left fun q _ => ?_)
    simp only [Function.comp, List.contains_iff_mem]
    by_cases hm : q.tag ∈ ms.map Record.tag
    · rw [if_pos hm, if_pos hm, if_pos (by exact hm)]
      rfl
    · rw [if_neg hm, if_neg hm, if_neg hm]
  unfold State.grant
  rw [hreq]
  dsimp only
  refine (congrArg (fun rs => State.setRecords { ((u.asked o ms late).modOutlet o fun x => x.startStroke.holdSet (ms.map Record.tag) (routeUnits ms)).countOutlet o .strokes 1 with
    aa := { slotsInUse := u.aa.slotsInUse + 1 } } rs) hrecords).trans ?_
  have hmod : (u.asked o ms late).modOutlet o (fun x => x.startStroke.holdSet (ms.map Record.tag) (routeUnits ms))
      = (u.withEach ms (fun q => { q with state := .due, waypoint := some late })).setOutlet o (((u.asked o ms late).outlet o).startStroke.holdSet (ms.map Record.tag) (routeUnits ms)) :=
    State.setOutlet_setOutlet (u.withEach ms fun q => { q with state := .due, waypoint := some late }) o _ _
  rw [hmod, hheld]
  rfl

/-! ### The tick of a cluster that alone has reached a waypoint -/

section
variable {u : State} {o : OutletNo} {t : Tag} {ms : List Record}

theorem State.FiresAlone.reached (hu : u.FiresAlone o t ms) {st : RecordState} (hst : ∀ q ∈ ms, q.state = st) (hat : ∃ q ∈ ms, q.waypoint = some u.bpu.position)
    (act : State → Tag → State) : u.reachKind st u.bpu.position act = act u t := by
  obtain ⟨q, hq, hw⟩ := hat
  have hmem : ∀ r ∈ ms, r ∈ u.tc.records ∧ r.leaderTag = t := fun r hr => by
    rw [← hu.booked.members, State.mem_membersOf] at hr
    exact hr
  exact State.reachKind_one ⟨q, (hmem q hq).1, (hmem q hq).2, hst q hq, hw⟩ (fun r hr _ hw => (hmem r (hu.only r hr hw)).2) act

/-- A DUE cluster at its late limit (R29, R119). -/
theorem State.FiresAlone.reach_due (hu : u.FiresAlone o t ms) (hst : ∀ q ∈ ms, q.state = .due) (hat : ∃ q ∈ ms, q.waypoint = some u.bpu.position) :
    u.reachWaypoints = u.abandoned o t ms .fireLate := by
  have hafter : ∀ st, st ≠ .carried → (u.abandoned o t ms .fireLate).NoneAt st u.bpu.position := fun st hne => State.abandoned_noneAt hu.only hne
  unfold State.reachWaypoints
  dsimp only
  rw [State.reachKind_quiet (State.noneAt_of_only hu.only hst (by decide)), hu.reached hst hat, State.abandonLate_eq hu.table hu.booked hu.ahead,
    State.reachKind_quiet (hafter .routed (by decide)), State.reachKind_quiet (hafter .pending (by decide)), State.reachKind_quiet (hafter .due (by decide))]

/-- A ROUTED cluster at its fire point, up to its request (R29, R30). -/
theorem State.FiresAlone.reach_routed (hu : u.FiresAlone o t ms) (hst : ∀ q ∈ ms, q.state = .routed) (hat : ∃ q ∈ ms, q.waypoint = some u.bpu.position) :
    u.reachWaypoints = ((u.fireCluster t).reachKind .pending u.bpu.position State.decisionWalk).reachKind .due u.bpu.position State.abandonLate := by
  unfold State.reachWaypoints
  dsimp only
  rw [State.reachKind_quiet (State.noneAt_of_only hu.only hst (by decide)), State.reachKind_quiet (State.noneAt_of_only hu.only hst (by decide)), hu.reached hst hat]

/-- ... where another request waits (R119). -/
theorem State.FiresAlone.reach_busy (hu : u.FiresAlone o t ms) (hst : ∀ q ∈ ms, q.state = .routed) (hat : ∃ q ∈ ms, q.waypoint = some u.bpu.position)
    (hbusy : (u.outlet o).request ≠ none) : u.reachWaypoints = u.abandoned o t ms .paddleBusy := by
  have hafter : ∀ st, st ≠ .carried → (u.abandoned o t ms .paddleBusy).NoneAt st u.bpu.position := fun st hne => State.abandoned_noneAt hu.only hne
  rw [hu.reach_routed hst hat, State.fireCluster_busy hu.table hu.booked hu.ahead hbusy, State.reachKind_quiet (hafter .pending (by decide)),
    State.reachKind_quiet (hafter .due (by decide))]

/-- What the tick needs of a ROUTED cluster whose request can wait. -/
structure State.Asks (u : State) (o : OutletNo) (t : Tag) (ms : List Record) (late : Pos) : Prop where
  alone : u.FiresAlone o t ms
  state : ∀ q ∈ ms, q.state = .routed
  reached : ∃ q ∈ ms, q.waypoint = some u.bpu.position
  point : ∀ q ∈ ms, ∀ route, q.route = some route → route.firePoint = u.bpu.position
  free : (u.outlet o).request = none
  limit : late = plus u.bpu.position (u.outlet o).fields.lateTolerance
  tolerance : (u.outlet o).fields.lateTolerance ≤ 255
  leader : t ∈ ms.map Record.tag

variable {late : Pos}

/-- A request that is not granted waits for its late limit, or is abandoned at once under a late tolerance of 0 (R29, R119). -/
theorem State.Asks.reach_waits (h : u.Asks o t ms late) (hfire : u.fireCluster t = u.asked o ms late) :
    (0 < (u.outlet o).fields.lateTolerance → u.reachWaypoints = u.asked o ms late)
      ∧ ((u.outlet o).fields.lateTolerance = 0 → u.reachWaypoints = u.abandoned o t ms .fireLate) := by
  have hasked := u.asked_askedWith o ms late
  rw [h.alone.reach_routed h.state h.reached, hfire]
  refine ⟨fun hpos => hasked.rest h.alone (.inr ?_), fun hzero => ?_⟩
  · rw [h.limit]
    exact plus_ne hpos h.tolerance
  · rw [hasked.abandons h.alone (fun _ _ => not_false) (by rw [h.limit, hzero, plus_zero]), State.asked_abandoned h.free h.leader]

/-- The request of a cluster at a paddle that is not IDLE, or holds a set (R118, R120). -/
theorem State.Asks.fire_behind (h : u.Asks o t ms late) (hpaddle : (u.outlet o).paddle ≠ .idle ∨ (u.outlet o).strokeSet ≠ none) : u.fireCluster t = u.asked o ms late := by
  rw [State.fireCluster_asks h.alone.table h.alone.booked h.point h.free h.limit, if_neg]
  exact fun ⟨hidle, hset⟩ => hpaddle.elim (· hidle) (· hset)

theorem State.Asks.fire_idle (h : u.Asks o t ms late) (hidle : (u.outlet o).paddle = .idle) (hset : (u.outlet o).strokeSet = none) :
    u.fireCluster t = (u.asked o ms late).grantDecision := by
  rw [State.fireCluster_asks h.alone.table h.alone.booked h.point h.free h.limit, if_pos ⟨hidle, hset⟩]

/-- The request of a cluster at a full budget (R122). -/
theorem State.Asks.fire_full (h : u.Asks o t ms late) (hfull : u.params.airBudget ≤ u.aa.slotsInUse) : u.fireCluster t = u.asked o ms late := by
  by_cases hp : (u.outlet o).paddle = .idle ∧ (u.outlet o).strokeSet = none
  · rw [h.fire_idle hp.1 hp.2, State.grantDecision_full (s := u.asked o ms late) hfull]
  · exact h.fire_behind (by
      by_contra hn
      rw [not_or, not_not, not_not] at hn
      exact hp hn)

/-- A request that alone waits is granted at once where a slot is free (R122, R126). -/
theorem State.Asks.reach_granted (h : u.Asks o t ms late) (hquiet : u.quiet) (hidle : (u.outlet o).paddle = .idle) (hset : (u.outlet o).strokeSet = none)
    (hslot : u.aa.slotsInUse < u.params.airBudget) : u.reachWaypoints = (u.asked o ms late).grant o := by
  have hout := u.outlet_asked o ms late
  have hcan : (u.asked o ms late).canGrant o := by
    unfold State.canGrant
    rw [hout, if_pos rfl]
    exact ⟨by simp, hidle, hset⟩
  have honly : ∀ b, (u.asked o ms late).canGrant b → b = o := by
    rintro b ⟨hreq, -⟩
    by_contra hne
    rw [hout, if_neg (Ne.symm hne)] at hreq
    exact hreq (hquiet b)
  have hgrant := State.grantDecision_only hcan honly hslot
  obtain ⟨g, hg⟩ := State.grantDecision_spec (u.asked o ms late)
  have hin : o ∈ g := by
    by_contra hnot
    obtain hfull | hall := hg.stop
    · have hnil : g = [] := List.eq_nil_iff_forall_not_mem.mpr fun b hb => hnot (honly b (hg.able b hb) ▸ hb)
      rw [hnil] at hfull
      exact absurd hslot (Nat.not_lt.mpr hfull)
    · exact hnot (hall o hcan)
  have hmembers : ((u.asked o ms late).outlet o).requestMembers = ms.map Record.tag := by
    rw [hout, if_pos rfl]
    rfl
  rw [h.alone.reach_routed h.state h.reached, h.fire_idle hidle hset, (State.granted_askedWith hg).rest h.alone (.inl fun q hq => ⟨o, hin, ?_⟩), hgrant]
  rw [hmembers]
  exact List.mem_map_of_mem hq

/-- A request that waits with others, at an IDLE paddle that holds no set: a grant decision takes them all (R122, R123). -/
theorem State.Asks.reach_decision (h : u.Asks o t ms late) (hidle : (u.outlet o).paddle = .idle) (hset : (u.outlet o).strokeSet = none)
    (hothers : ∀ j, ∀ q ∈ ms, q.tag ∉ (u.outlet j).requestMembers) :
    ∃ v g, GrantDecision v (u.asked o ms late) g ∧ (o ∈ g ∨ 0 < (u.outlet o).fields.lateTolerance → u.reachWaypoints = v)
      ∧ (o ∉ g → (u.outlet o).fields.lateTolerance = 0 → u.reachWaypoints = v.abandoned o t ms .fireLate) := by
  obtain ⟨g, hg⟩ := State.grantDecision_spec (u.asked o ms late)
  have hasked := State.granted_askedWith hg
  have hout := u.outlet_asked o ms late
  refine ⟨_, g, hg, fun hdone => ?_, fun hnot hzero => ?_⟩
  · rw [h.alone.reach_routed h.state h.reached, h.fire_idle hidle hset]
    refine hasked.rest h.alone (hdone.imp (fun hin q hq => ⟨o, hin, ?_⟩) fun hpos => ?_)
    · rw [hout, if_pos rfl]
      exact List.mem_map_of_mem hq
    · rw [h.limit]
      exact plus_ne hpos h.tolerance
  · rw [h.alone.reach_routed h.state h.reached, h.fire_idle hidle hset]
    refine hasked.abandons h.alone (fun q hq => ?_) (by rw [h.limit, hzero, plus_zero])
    rintro ⟨j, hj, hm⟩
    rw [hout, if_neg (fun e : o = j => hnot (e ▸ hj))] at hm
    exact hothers j q hq hm

end

/-! ### Whole clusters and lone records -/

/-- The records of a waiting request are DUE at its outlet (R29, R118). -/
theorem State.booksLaw.requestMembers_due {s : State} (hs : s.booksLaw) {o : OutletNo} {t : Tag} (h : t ∈ (s.outlet o).requestMembers) : ∃ r ∈ s.tc.records, r.tag = t ∧ r.isAt .due o := by
  have hdue := hs.due o
  unfold Outlet.requestMembers at h
  cases hr : (s.outlet o).request with
  | none =>
    rw [hr] at h
    cases h
  | some w =>
    rw [hr] at h hdue
    cases w with
    | test => cases h
    | deadline members late units => exact (hdue.2.1 t).mp h

/-- Settles O25: the tick's one cluster, by its state, its outlet's request and its paddle. -/
theorem firePointAndLateLimitTakeAWholeCluster : Obligations.FirePointAndLateLimitTakeAWholeCluster := by
  intro s a b lead ms route x u asked gone late why abandoned htick hs hl hleads hms hroute hx hreach hahead hu hlate hwhy habandoned hgone hasked
  have hself := Record.leaderTag_of_leads hleads
  have hleadms : lead ∈ ms := by
    rw [hms]
    exact State.mem_membersOf.mpr ⟨hl, hself⟩
  have hstates : ∀ q ∈ ms, q.state = lead.state := fun q hq => by
    rw [hms, State.mem_membersOf] at hq
    exact (hs.clustered.same hl hq.1 (hq.2.trans hself.symm)).1
  have habs : ∀ v : State, v.params = s.params → v.abandoned route.outlet lead.tag ms why = abandoned v := fun v hv => by
    rw [habandoned, State.abandoned, State.ride_congr hv]
  have halone : lead.state = .routed ∨ lead.state = .due → u.FiresAlone route.outlet lead.tag ms := fun hst => by
    have hbooked := hs.clustered.booked hl hst hroute
    rw [hself, ← hms] at hbooked
    rw [hu]
    exact ⟨hs.slots, ⟨hbooked.members, hbooked.nonempty, hbooked.routed, hbooked.waits⟩, hreach.2, hahead⟩
  have hat : ∃ q ∈ ms, q.waypoint = some u.bpu.position := by
    rw [hu]
    exact hreach.1
  have hout : u.outlet route.outlet = x := by rw [hu, hx]; rfl
  have hup : u.params = s.params := by rw [hu]; rfl
  have hasked' : u.asked route.outlet ms late = asked := by rw [hasked, State.asked, hout]
  rw [State.exec_plainTick htick, ← hu]
  refine ⟨fun hrouted hfire htol => ?_, fun hdue => ?_⟩
  · have hone := halone (.inl hrouted)
    have hst : ∀ q ∈ ms, q.state = .routed := fun q hq => (hstates q hq).trans hrouted
    have hlatewhy : x.request = none → why = .fireLate := fun hfree => by
      rw [hwhy, if_neg]
      exact fun h => h.2 hfree
    have hasks : x.request = none → u.Asks route.outlet lead.tag ms late := fun hfree => {
      alone := hone
      state := hst
      reached := hat
      point := fun q hq r hr => by
        rw [hms, State.mem_membersOf] at hq
        have hsame := (hs.clustered.same hl hq.1 (hq.2.trans hself.symm)).2
        rw [hr, hroute] at hsame
        rw [hu]
        exact (congrArg Prod.snd (Option.some.inj hsame)).trans hfire
      free := by rw [hout]; exact hfree
      limit := by
        rw [hlate, hout, hu, hfire]
        rfl
      tolerance := by rw [hout]; exact htol
      leader := List.mem_map_of_mem hleadms }
    have hwait : x.request = none → u.fireCluster lead.tag = u.asked route.outlet ms late →
        (0 < x.fields.lateTolerance → u.reachWaypoints = asked) ∧ (x.fields.lateTolerance = 0 → u.reachWaypoints = gone) := fun hfree hfires => by
      have h := (hasks hfree).reach_waits hfires
      rw [hout, hasked', ← hlatewhy hfree, habs u hup, ← hgone] at h
      exact h
    refine ⟨fun hquiet hidle hset hslot => ?_, fun hquiet hbehind => ?_, fun hfree hidle hset => ?_, fun hfree hbehind => ?_, fun hbusy => ?_⟩
    · have hfree : x.request = none := by rw [hx]; exact hquiet _
      rw [(hasks hfree).reach_granted (by rw [hu]; exact hquiet) (by rw [hout]; exact hidle) (by rw [hout]; exact hset) (by rw [hu]; exact hslot), State.asked_grant (by rw [hout]; exact hfree), hout, hu]
      rfl
    · have hfree : x.request = none := by rw [hx]; exact hquiet _
      have hfires : u.fireCluster lead.tag = u.asked route.outlet ms late := by
        rw [← or_assoc] at hbehind
        obtain hbehind | hfull := hbehind
        · exact (hasks hfree).fire_behind (by rw [hout]; exact hbehind)
        · exact (hasks hfree).fire_full (by rw [hu]; exact hfull)
      obtain ⟨h1, h2⟩ := hwait hfree hfires
      rw [hasked] at h1
      exact ⟨fun h => congrArg Host.Outcome.next (h1 h), fun h => congrArg Host.Outcome.next (h2 h)⟩
    · have hothers : ∀ j, ∀ q ∈ ms, q.tag ∉ (u.outlet j).requestMembers := by
        intro j q hq hm
        rw [hms, State.mem_membersOf] at hq
        rw [hu] at hm
        obtain ⟨r, hr, hrt, hdue, -⟩ := hs.requestMembers_due (o := j) hm
        rw [State.eq_of_tag hs.slots hr hq.1 hrt.symm] at hq
        have hrouted' := (hs.clustered.same hl hq.1 (hq.2.trans hself.symm)).1
        rw [hdue, hrouted] at hrouted'
        cases hrouted'
      obtain ⟨v, g, hg, hdone, hleft⟩ := (hasks hfree).reach_decision (by rw [hout]; exact hidle) (by rw [hout]; exact hset) hothers
      rw [hout] at hdone hleft
      rw [hasked'] at hg
      have hv : v.params = s.params := by
        rw [hg.rest, hasked, hu]
        rfl
      rw [← hlatewhy hfree, habs v hv] at hleft
      exact ⟨v, g, hg, fun h => congrArg Host.Outcome.next (hdone h), fun h h' => congrArg Host.Outcome.next (hleft h h')⟩
    · obtain ⟨h1, h2⟩ := hwait hfree ((hasks hfree).fire_behind (by rw [hout]; exact hbehind))
      split
      · next h => rw [h1 h]
      · next h => rw [h2 (by omega)]
    · have hb := hone.reach_busy hst hat (by rw [hout]; exact hbusy)
      have hpb : why = .paddleBusy := by rw [hwhy, if_pos ⟨hrouted, hbusy⟩]
      rw [hb, ← hpb, habs u hup, hgone]
  · have hd := (halone (.inr hdue)).reach_due (fun q hq => (hstates q hq).trans hdue) hat
    have hfl : why = .fireLate := by
      rw [hwhy, if_neg]
      rw [hdue]
      rintro ⟨h, -⟩
      cases h
    rw [hd, ← hfl, habs u hup, hgone]

end Sys2Proof.Machine
end

section
/-! PROOFS. Retirement: what one leaves of its cluster, and whole clusters taken out of the table. -/

namespace Sys2Proof.Machine

/-! ### The cluster that a record leaves -/

/-- A record linked anew under another leader, with the name and key it had (R42). -/
structure Record.Relinked (lead : Tag) (old new : Record) : Prop where
  slot : new.slot = old.slot
  gen : new.gen = old.gen
  key : new.key = old.key
  leader : new.leaderTag = lead

theorem State.relink_relinked (s : State) (lead : Tag) (n : Nat) (q : Record) : Record.Relinked lead q (s.relink lead n q) := by
  unfold State.relink
  split
  · next h =>
    refine ⟨rfl, rfl, rfl, ?_⟩
    rw [← h]
    unfold Record.leaderTag
    split
    · next t ht =>
      dsimp only at ht
      split at ht <;> cases ht
    · rfl
  · exact ⟨rfl, rfl, rfl, rfl⟩

theorem Outlet.renameLatest_of_other {x : Outlet} {old : Tag} (h : ∀ l, x.latest = some l → l.owner ≠ old) (lead : Tag) : x.renameLatest old lead = x := by
  unfold Outlet.renameLatest
  split
  · next l hl => exact if_neg (h l hl)
  · rfl

/-- A record leaves its cluster: the other members are linked anew, and nothing else changes where no latest fire point names the cluster (R42, R77). -/
theorem State.leaveCluster_clean {s : State} {r : Record} (h : r.cluster = none ∨ ∀ j l, (s.outlet j).latest = some l → l.owner ≠ r.leaderTag) :
    s.leaveCluster r = s ∧ (r.cluster = none ∨ s.membersOf r.leaderTag = []) ∨ ∃ lead n first rest, r.cluster ≠ none ∧ s.membersOf r.leaderTag = first :: rest
      ∧ lead = (if r.leaderTag = r.tag then first.tag else r.leaderTag) ∧ n = rest.length + 1
      ∧ s.leaveCluster r = s.mapRecords (fun m => m.leaderTag == r.leaderTag) (s.relink lead n) := by
  unfold State.leaveCluster
  cases hc : r.cluster with
  | none => exact .inl ⟨rfl, .inl rfl⟩
  | some link =>
    cases hm : s.membersOf r.leaderTag with
    | nil => exact .inl ⟨rfl, .inr rfl⟩
    | cons first rest =>
      refine .inr ⟨_, _, first, rest, by simp, rfl, rfl, rfl, ?_⟩
      dsimp only
      cases r.route with
      | none => rfl
      | some route =>
        dsimp only
        have hclean := h.resolve_left (by rw [hc]; simp)
        have hrename := Outlet.renameLatest_of_other (hclean route.outlet) (if r.leaderTag = r.tag then first.tag else r.leaderTag)
        exact (congrArg (State.setOutlet _ route.outlet) hrename).trans (State.setOutlet_outlet _ _)

/-! ### One record out of the table -/

/-- The table without one record, its slot FREE with the next generation (R23). -/
def State.without (s : State) (r : Record) : State :=
  { s with tc := { records := s.tc.records.filter (fun x => x.tag != r.tag), gens := vset s.tc.gens r.slot (vget s.tc.gens r.slot + 1) } }

theorem State.retire_found {s : State} (hs : s.tableLaw) {r : Record} (hr : r ∈ s.tc.records) (c : RetireOutcome) :
    s.retire c r.tag = (((s.without r).countKey r.key c.count).leaveCluster r).drainCheck := by
  unfold State.retire
  rw [State.find_tag hs hr]
  rfl

/-- A retirement of the clusters of `ts` from a table: the records taken out, counted under their keys, and nothing else but the end of DRAINING (R40, R166, R196). -/
structure State.Retired (new old : State) (c : RetireOutcome) (ts : List Tag) : Prop where
  taken : TakenOut new old ts
  keys : ∀ k, vget new.tau.keys k = (vget old.tau.keys k).add (old.keyCountIn ts k) c.count
  rest : new = { old with tc := new.tc, service := new.service, ilc := new.ilc, tau := { old.tau with keys := new.tau.keys } }

theorem KeyTally.add_zero {x : KeyTally} (h : x.bounded) (c : KeyCount) : x.add 0 c = x := by
  obtain ⟨h1, h2, h3, h4, h5⟩ := h
  cases c <;> simp only [KeyTally.add, bump, Nat.add_zero, Nat.min_eq_right h1, Nat.min_eq_right h2, Nat.min_eq_right h3, Nat.min_eq_right h4, Nat.min_eq_right h5]

theorem KeyTally.add_add (x : KeyTally) (m n : Nat) (c : KeyCount) : (x.add m c).add n c = x.add (m + n) c := by
  have hbump : ∀ y, bump n (bump m y) = bump (m + n) y := fun y => by
    unfold bump
    omega
  cases c <;> simp only [KeyTally.add, hbump]

/-- What becomes of the others of a record's cluster as it leaves. -/
structure State.LeftBy (s : State) (r : Record) (f : Record → Record) : Prop where
  slot : ∀ q, (f q).slot = q.slot
  gen : ∀ q, (f q).gen = q.gen
  key : ∀ q, (f q).key = q.key
  alone : r.cluster = none → ∀ q, f q = q
  other : ∀ q, q.leaderTag ≠ r.leaderTag → f q = q
  leader : ∀ q, q.leaderTag = r.leaderTag → f q = q ∨ (f q).leaderTag = r.leaderTag ∨ ∃ first ∈ s.tc.records, first.leaderTag = r.leaderTag ∧ (f q).leaderTag = first.tag

/-- The table without one record, the others of its cluster as they become. -/
def State.gone (s : State) (r : Record) (f : Record → Record) (c : RetireOutcome) : State :=
  ({ s with tc := {
    records := (s.tc.records.filter (fun x => x.tag != r.tag)).map f
    gens := vset s.tc.gens r.slot (vget s.tc.gens r.slot + 1) } } : State).countKey r.key c.count

theorem State.retire_gone {s : State} (hs : s.tableLaw) {r : Record} (hr : r ∈ s.tc.records)
    (hclean : r.cluster = none ∨ ∀ j l, (s.outlet j).latest = some l → l.owner ≠ r.leaderTag) (c : RetireOutcome) :
    ∃ f, s.LeftBy r f ∧ s.retire c r.tag = (s.gone r f c).drainCheck := by
  obtain ⟨u, hu⟩ : ∃ u, u = (s.without r).countKey r.key c.count := ⟨_, rfl⟩
  have houtlet : ∀ j, u.outlet j = s.outlet j := fun j => by rw [hu]; rfl
  have hrecords : u.tc.records = s.tc.records.filter (fun x => x.tag != r.tag) := by rw [hu]; rfl
  rw [State.retire_found hs hr, ← hu]
  obtain ⟨hsame, -⟩ | ⟨lead, n, first, rest, hc, hm, hlead, -, hlinked⟩ := State.leaveCluster_clean (s := u) (r := r) (by simpa only [houtlet] using hclean)
  · refine ⟨id, ⟨fun _ => rfl, fun _ => rfl, fun _ => rfl, fun _ _ => rfl, fun _ _ => rfl, fun _ _ => .inl rfl⟩, ?_⟩
    rw [hsame, State.gone, List.map_id, hu]
    rfl
  · have hrel := fun q => u.relink_relinked lead n q
    refine ⟨fun q => if q.leaderTag == r.leaderTag then u.relink lead n q else q, ?_, ?_⟩
    · have hif : ∀ (q : Record) {P : Record → Prop}, P (u.relink lead n q) → P q → P (if q.leaderTag == r.leaderTag then u.relink lead n q else q) := fun q P h h' => by
        split
        · exact h
        · exact h'
      refine ⟨fun q => hif q (P := fun x => x.slot = q.slot) (hrel q).slot rfl, fun q => hif q (P := fun x => x.gen = q.gen) (hrel q).gen rfl,
        fun q => hif q (P := fun x => x.key = q.key) (hrel q).key rfl, fun h => absurd h hc, fun q hq => if_neg (by simpa using hq), fun q hq => .inr ?_⟩
      rw [if_pos (beq_iff_eq.mpr hq), (hrel q).leader, hlead]
      split
      · have hfirst : first ∈ u.membersOf r.leaderTag := hm ▸ List.mem_cons_self
        rw [State.mem_membersOf, hrecords] at hfirst
        exact .inr ⟨first, (List.mem_filter.mp hfirst.1).1, hfirst.2, rfl⟩
      · exact .inl rfl
    · rw [hlinked, hu]
      rfl

/-- Clusters that stand whole in a set of tags, or records of it that are tied to none, those of `ts` of them not yet retired. -/
structure State.Whole (s : State) (all ts : List Tag) : Prop where
  table : s.tableLaw
  nodup : ts.Nodup
  live : ∀ t ∈ ts, ∃ r ∈ s.tc.records, r.tag = t
  left : ∀ r ∈ s.tc.records, r.tag ∈ all → r.tag ∈ ts
  sub : ∀ t ∈ ts, t ∈ all
  whole : (∀ r ∈ s.tc.records, r.leaderTag ∈ all ↔ r.tag ∈ all) ∨ ∀ r ∈ s.tc.records, r.tag ∈ all → r.cluster = none
  clean : ∀ j l, (s.outlet j).latest = some l → l.owner ∈ all → ∀ q ∈ s.tc.records, q.tag ∈ all → q.cluster = none
  bounded : s.tau.bounded

theorem State.drainCheck_tc (s : State) : s.drainCheck.tc = s.tc := by
  unfold State.drainCheck
  split <;> rfl

theorem State.drainCheck_rest (s : State) : s.drainCheck = { s with service := s.drainCheck.service, ilc := s.drainCheck.ilc } := by
  unfold State.drainCheck
  split <;> rfl

/-- DRAINING ends on an empty table (R166). -/
theorem State.drainCheck_cases (s : State) :
    (s.service = .draining ∧ s.drainCheck.tc.records = [] ∧ s.drainCheck.service = .standby ∧ s.drainCheck.ilc = { s.ilc with l := s.ilc.e })
      ∨ (¬(s.service = .draining ∧ s.drainCheck.tc.records = []) ∧ s.drainCheck.service = s.service ∧ s.drainCheck.ilc = s.ilc) := by
  rw [State.drainCheck_tc]
  unfold State.drainCheck
  by_cases h : s.service = .draining ∧ s.tc.records = []
  · rw [if_pos h]
    exact .inl ⟨h.1, h.2, rfl, rfl⟩
  · rw [if_neg h]
    exact .inr ⟨h, rfl, rfl⟩

theorem State.LeftBy.tag {s : State} {r : Record} {f : Record → Record} (h : s.LeftBy r f) (q : Record) : (f q).tag = q.tag := by
  unfold Record.tag
  rw [h.slot, h.gen]

/-- One record of whole clusters out of the table: the others of the set still stand whole. -/
theorem State.Whole.step {s : State} {all rest : List Tag} {t : Tag} (h : s.Whole all (t :: rest)) (c : RetireOutcome) :
    ∃ r f, r ∈ s.tc.records ∧ r.tag = t ∧ s.LeftBy r f ∧ (∀ q ∈ s.tc.records, q.tag ∉ all → f q = q) ∧ s.retire c t = (s.gone r f c).drainCheck ∧ (s.retire c t).Whole all rest := by
  obtain ⟨r, hr, rfl⟩ := h.live t List.mem_cons_self
  have hin : r.tag ∈ all := h.sub _ List.mem_cons_self
  have hleadin : r.leaderTag ∈ all := by
    obtain hw | hw := h.whole
    · exact (hw r hr).mpr hin
    · rw [Record.leaderTag_of_leads (Record.leads_of_none (hw r hr hin))]
      exact hin
  obtain ⟨f, hf, hretire⟩ := State.retire_gone h.table hr (by
    by_cases hc : r.cluster = none
    · exact .inl hc
    · refine .inr fun j l hl e => hc (h.clean j l hl (e ▸ hleadin) r hr hin)) c
  have houtside : ∀ q ∈ s.tc.records, q.tag ∉ all → f q = q := fun q hq hq' => by
    obtain hw | hw := h.whole
    · exact hf.other q fun e => hq' ((hw q hq).mp (e ▸ hleadin))
    · exact hf.alone (hw r hr hin) q
  obtain ⟨hnot, hrest⟩ := List.nodup_cons.mp h.nodup
  have hrecords : (s.retire c r.tag).tc.records = (s.tc.records.filter (fun x => x.tag != r.tag)).map f := by rw [hretire, State.drainCheck_tc]; rfl
  have houtlets : ∀ j, (s.retire c r.tag).outlet j = s.outlet j := fun j => by rw [hretire, State.drainCheck_rest]; rfl
  have hmem : ∀ {q'}, q' ∈ (s.retire c r.tag).tc.records ↔ ∃ q ∈ s.tc.records, q.tag ≠ r.tag ∧ f q = q' := fun {q'} => by
    rw [hrecords]
    simp only [List.mem_map, List.mem_filter, bne_iff_ne, and_assoc]
  refine ⟨r, f, hr, rfl, hf, houtside, hretire, ?_, hrest, fun t ht => ?_, fun q' hq' hq => ?_, fun t ht => h.sub t (List.mem_cons_of_mem _ ht),
    h.whole.imp (fun hw q' hq' => ?_) (fun hw q' hq' hq => ?_), fun j l hl ho q' hq' hq => ?_, (Work.retire s c r.tag).tau.bounded h.bounded⟩
  · unfold State.tableLaw
    rw [hrecords, List.map_map]
    have hslot : (fun r : Record => r.slot) ∘ f = fun r => r.slot := funext hf.slot
    rw [hslot]
    exact h.table.sublist (List.filter_sublist.map _)
  · obtain ⟨q, hq, rfl⟩ := h.live t (List.mem_cons_of_mem _ ht)
    exact ⟨f q, hmem.mpr ⟨q, hq, fun e => hnot (e ▸ ht), rfl⟩, hf.tag q⟩
  · obtain ⟨q, hqs, hne, rfl⟩ := hmem.mp hq'
    rw [hf.tag] at hq ⊢
    exact (List.mem_cons.mp (h.left q hqs hq)).resolve_left hne
  · obtain ⟨q, hqs, hne, rfl⟩ := hmem.mp hq'
    rw [hf.tag]
    by_cases he : q.leaderTag = r.leaderTag
    · have hqin : q.tag ∈ all := (hw q hqs).mp (he ▸ hleadin)
      refine iff_of_true ?_ hqin
      obtain h' | h' | ⟨first, hfirst, hfl, h'⟩ := hf.leader q he
      · rw [h', he]
        exact hleadin
      · rw [h']
        exact hleadin
      · rw [h']
        exact (hw first hfirst).mp (hfl ▸ hleadin)
    · rw [hf.other q he]
      exact hw q hqs
  · obtain ⟨q, hqs, hne, rfl⟩ := hmem.mp hq'
    rw [hf.tag] at hq
    rw [hf.alone (hw r hr hin)]
    exact hw q hqs hq
  · obtain ⟨q, hqs, hne, rfl⟩ := hmem.mp hq'
    rw [houtlets] at hl
    rw [hf.tag] at hq
    rw [hf.alone (h.clean j l hl ho r hr hin)]
    exact h.clean j l hl ho q hqs hq

/-! ### Counts of what is taken out -/

/-- The records that a set of tags picks, one of them and then the rest. -/
theorem State.countP_gone {s : State} {r : Record} {f : Record → Record} (hs : s.tableLaw) (hr : r ∈ s.tc.records) (p : Record → Bool) (hp : ∀ q, p (f q) = p q)
    (htag : ∀ q, (f q).tag = q.tag) {rest : List Tag} :
    s.tc.records.countP (fun q => (r.tag :: rest).contains q.tag && p q)
      = (if p r = true then 1 else 0) + ((s.tc.records.filter (fun x => x.tag != r.tag)).map f).countP (fun q => rest.contains q.tag && p q) := by
  have hone : (s.tc.records.filter fun x => !(x.tag != r.tag)) = [r] := by
    rw [← State.filter_tag hs hr]
    exact List.filter_congr fun q _ => by simp [bne]
  rw [List.countP_eq_countP_filter_add _ _ (fun x => x.tag != r.tag), hone, Nat.add_comm, List.countP_map]
  refine congrArg₂ (· + ·) (by simp [List.countP_cons]) (List.countP_congr fun q hq => ?_)
  have hne : (q.tag == r.tag) = false := by simpa [bne] using (List.mem_filter.mp hq).2
  simp only [Function.comp, htag, hp, List.contains_cons, hne, Bool.false_or]

/-- Whole clusters are taken out of the table together (R23, R40, R42). -/
theorem State.Whole.retired {c : RetireOutcome} {all : List Tag} : ∀ {ts : List Tag} {s : State}, s.Whole all ts → (s.retireAll c ts).Retired s c ts
  | [], s, h => by
    refine ⟨⟨?_, fun i => ?_, ?_, ?_⟩, fun k => ?_, rfl⟩
    · exact (List.filter_eq_self.mpr fun _ _ => rfl).symm
    · unfold State.slotCountIn
      simp [State.retireAll]
    · simp [State.retireAll]
    · simp [State.retireAll]
    · unfold State.keyCountIn
      simp [State.retireAll, KeyTally.add_zero (h.bounded.1 k)]
  | t :: rest, s, h => by
    obtain ⟨r, f, hr, rfl, hf, houtside, hretire, hwhole⟩ := h.step c
    have ih := hwhole.retired (c := c)
    show ((s.retire c r.tag).retireAll c rest).Retired s c (r.tag :: rest)
    generalize (s.retire c r.tag).retireAll c rest = w at ih ⊢
    generalize s.retire c r.tag = u at ih hretire hwhole
    have hrecords : u.tc.records = (s.tc.records.filter (fun x => x.tag != r.tag)).map f := by rw [hretire, State.drainCheck_tc]; rfl
    have hgens : u.tc.gens = vset s.tc.gens r.slot (vget s.tc.gens r.slot + 1) := by rw [hretire, State.drainCheck_tc]; rfl
    have hkeys : u.tau.keys = vset s.tau.keys r.key ((vget s.tau.keys r.key).add 1 c.count) := by rw [hretire, State.drainCheck_rest]; rfl
    have hleft : w.tc.records = s.tc.records.filter (fun q => !(r.tag :: rest).contains q.tag) := by
      have hpick : (s.tc.records.filter (fun x => x.tag != r.tag)).filter ((fun q => !rest.contains q.tag) ∘ f) = s.tc.records.filter (fun q => !(r.tag :: rest).contains q.tag) := by
        rw [List.filter_filter]
        refine List.filter_congr fun q _ => ?_
        simp only [Function.comp, hf.tag, List.contains_cons, Bool.not_or, bne, Bool.and_comm]
      rw [ih.taken.records, hrecords, List.filter_map, hpick]
      refine (List.map_congr_left fun q hq => ?_).trans (List.map_id _)
      obtain ⟨hq, hout⟩ := List.mem_filter.mp hq
      exact houtside q hq fun hin => by simp [h.left q hq hin] at hout
    have hempty : u.tc.records = [] → w.tc.records = [] := fun he => by rw [ih.taken.records, he]; rfl
    have hdrain := State.drainCheck_cases (s.gone r f c)
    rw [← hretire] at hdrain
    change (s.service = .draining ∧ u.tc.records = [] ∧ u.service = .standby ∧ u.ilc = { s.ilc with l := s.ilc.e })
      ∨ (¬(s.service = .draining ∧ u.tc.records = []) ∧ u.service = s.service ∧ u.ilc = s.ilc) at hdrain
    have hcond : ¬(s.service = .draining ∧ u.tc.records = []) →
        ((s.service = .draining ∧ w.tc.records = [] ∧ rest ≠ []) ↔ (s.service = .draining ∧ w.tc.records = [] ∧ r.tag :: rest ≠ [])) := fun hno => by
      refine and_congr_right fun hd => and_congr_right fun hw => iff_of_true (fun he => hno ⟨hd, ?_⟩) (List.cons_ne_nil _ _)
      rw [← hw, ih.taken.records, he]
      exact (List.filter_eq_self.mpr fun _ _ => rfl).symm
    refine ⟨⟨hleft, fun i => ?_, ?_, ?_⟩, fun k => ?_, ?_⟩
    · have hcount := State.countP_gone h.table hr (fun q => q.slot == i) (fun q => by rw [hf.slot]) hf.tag (rest := rest)
      rw [← hrecords] at hcount
      rw [ih.taken.gens, hgens, vget_vset, State.slotCountIn, State.slotCountIn, hcount]
      by_cases hi : r.slot = i
      · rw [if_pos hi, if_pos (by simpa using hi), hi, BitVec.ofNat_add, BitVec.add_assoc]
        rfl
      · rw [if_neg hi, if_neg (by simpa using hi), Nat.zero_add]
    · rw [ih.taken.service]
      obtain ⟨hd, he, hs', -⟩ | ⟨hno, hs', -⟩ := hdrain
      · rw [hs', if_neg (by simp), if_pos ⟨hd, hempty he, List.cons_ne_nil _ _⟩]
      · rw [hs']
        simp only [hcond hno]
    · rw [ih.taken.ilc]
      obtain ⟨hd, he, hs', hi⟩ | ⟨hno, hs', hi⟩ := hdrain
      · rw [hs', hi, if_neg (by simp), if_pos ⟨hd, hempty he, List.cons_ne_nil _ _⟩]
      · rw [hs', hi]
        simp only [hcond hno]
    · have hcount := State.countP_gone h.table hr (fun q => q.key == k) (fun q => by rw [hf.key]) hf.tag (rest := rest)
      rw [← hrecords] at hcount
      rw [ih.keys, hkeys, vget_vset, State.keyCountIn, State.keyCountIn, hcount]
      by_cases hk : r.key = k
      · rw [if_pos hk, if_pos (by simpa using hk), KeyTally.add_add, hk]
      · rw [if_neg hk, if_neg (by simpa using hk), Nat.zero_add]
    · rw [ih.rest, hretire, State.drainCheck_rest]
      rfl

/-- Whole clusters whose leaders name no latest fire point are taken out of the table (R23, R40, R42, R77). -/
theorem State.retireAll_retired {s : State} {ts : List Tag} (hs : s.tableLaw) (hw : s.wholeClusters ts) (hlatest : ∀ j l, (s.outlet j).latest = some l → l.owner ∉ ts)
    (hb : s.tau.bounded) (c : RetireOutcome) : (s.retireAll c ts).Retired s c ts :=
  State.Whole.retired (all := ts) ⟨hs, hw.1, hw.2.1, fun _ _ h => h, fun _ h => h, .inl hw.2.2, fun j l hl ho => absurd ho (hlatest j l hl), hb⟩

/-- Records that are alone are taken out of the table (R23, R40). -/
theorem State.retireAll_alone {s : State} {ts : List Tag} (hs : s.tableLaw) (hn : ts.Nodup) (hlive : ∀ t ∈ ts, ∃ r ∈ s.tc.records, r.tag = t)
    (hcluster : ∀ r ∈ s.tc.records, r.tag ∈ ts → r.cluster = none) (hb : s.tau.bounded) (c : RetireOutcome) :
    (s.retireAll c ts).Retired s c ts :=
  State.Whole.retired (all := ts) ⟨hs, hn, hlive, fun _ _ h => h, fun _ h => h, .inr hcluster, fun _ _ _ _ => hcluster, hb⟩

end Sys2Proof.Machine
end

section
/-! PROOFS. A passage that confirms a stroke set, and a rack removal that loses one. -/

namespace Sys2Proof.Machine

/-! ### Confirms -/

/-- A rack judged after a confirm, with its record written (R98, R100). -/
theorem State.judgeClosing_setOutlet (s : State) (o : OutletNo) (x : Outlet) {emptied : Bool} (h : emptied = decide (x.rack = .closing ∧ x.committed = 0)) :
    (s.setOutlet o x).judgeClosing o = (s.setOutlet o { x with rack := if emptied then .swapReady else x.rack }).withLatches (if emptied then 0x01 else 0) := by
  unfold State.judgeClosing
  dsimp only
  rw [State.outlet_setOutlet_self, State.setOutlet_setOutlet]
  cases emptied with
  | true =>
    rw [if_pos (of_decide_eq_true h.symm)]
    rfl
  | false =>
    rw [if_neg (of_decide_eq_false h.symm)]
    exact (State.withLatches_zero _).symm

/-- The outlet record of a confirm before the rack is judged (R100, R127). -/
def Outlet.confirmed (x : Outlet) (units : Nat) : Outlet := { x with committed := x.committed - units, fill := x.fill + units, missRun := 0, strokeSet := none }

/-- The items and units of a confirmed set counted at its outlet (R197). -/
def State.countConfirm (s : State) (o : OutletNo) (items units : Nat) : State :=
  { s with tau := { s.tau with outlets := s.tau.outlets.set o.val { vget s.tau.outlets o with
    items := min 16777215 ((vget s.tau.outlets o).items + items)
    units := min 16777215 ((vget s.tau.outlets o).units + units) } } }

theorem State.countConfirm_eq (s : State) (o : OutletNo) (items units : Nat) : (s.countOutlet o .items items).countOutlet o .units units = s.countConfirm o items units := by
  unfold State.countOutlet
  dsimp only
  rw [vget_vset_self, vset_vset]
  rfl

/-- The confirm of a held set whose units are all committed: the records retired, the outlet and its tallies, the rack judged, and a grant decision (R100, R127). -/
theorem State.confirm_eq {s v : State} {o : OutletNo} {set : StrokeSet} {x : Outlet} (hv : v = s.retireAll .delivered set.members) (hx : v.outlet o = x) (hunits : set.units ≤ x.committed)
    {full warn emptied : Bool} (hfull : full = decide (x.rack = .opened ∧ x.fields.capacity ≤ x.fill + set.units))
    (hwarn : warn = decide (0 < x.fields.warnLevel ∧ x.fill < x.fields.warnLevel ∧ x.fields.warnLevel ≤ x.fill + set.units))
    (hemptied : emptied = decide (x.rack = .closing ∧ x.committed - set.units = 0)) :
    s.confirm o set = ((((v.countConfirm o set.members.length set.units).withLatches (if full || warn || emptied then 0x01 else 0)).setOutlet o
      { x.confirmed set.units with rack := if full then .full else if emptied then .swapReady else x.rack })).grantDecision := by
  have hmin : min set.units x.committed = set.units := Nat.min_eq_left hunits
  unfold State.confirm
  dsimp only
  rw [← hv, hx, hmin]
  refine congrArg State.grantDecision ?_
  let w := v.countConfirm o set.members.length set.units
  have hcount := State.countConfirm_eq (v.setOutlet o (x.confirmed set.units)) o set.members.length set.units
  have hfill := State.judgeFill_setOutlet w o (x.confirmed set.units) x.fill (full := full) (warn := warn) hfull hwarn
  have hrack : emptied = decide ((if full then RackState.full else x.rack) = .closing ∧ x.committed - set.units = 0) := by
    rw [hemptied]
    cases full with
    | false => rfl
    | true =>
      have hopen := (of_decide_eq_true hfull.symm).1
      simp [hopen]
  have hclosing := State.judgeClosing_setOutlet (w.withLatches (if full || warn then 0x01 else 0)) o { x.confirmed set.units with rack := if full then .full else x.rack } hrack
  refine (congrArg (fun u : State => (u.judgeFill o x.fill).judgeClosing o) hcount).trans ((congrArg (fun u : State => u.judgeClosing o) hfill).trans (hclosing.trans ?_))
  have hlatches : (w.withLatches (if full || warn then 0x01 else 0)).withLatches (if emptied then 0x01 else 0) = w.withLatches (if full || warn || emptied then 0x01 else 0) := by
    rw [State.withLatches_withLatches]
    congr 1
    cases full || warn <;> cases emptied <;> rfl
  have hboth : (if emptied then RackState.swapReady else if full then .full else x.rack) = if full then .full else if emptied then .swapReady else x.rack := by
    cases full with
    | false => rfl
    | true =>
      have hopen := (of_decide_eq_true hfull.symm).1
      rw [hemptied, hopen]
      simp
  rw [show (w.withLatches (if full || warn || emptied then 0x01 else 0)) = _ from hlatches.symm]
  dsimp only
  rw [hboth]
  rfl

/-- Settles O17: the set retired, its units moved, the rack judged, and a grant decision. -/
theorem passageConfirmsTheStrokeSet : Obligations.PassageConfirmsTheStrokeSet := by
  intro o s set heye hset hs hwhole hlatest hb hunits fill committed full warn emptied hfill hcommitted hfull hwarn hemptied
  let x : Outlet := { s.outlet o with eyeFilter := { accepted := some true, run := (s.outlet o).eyeFilter.run, count := 0 } }
  let s₁ := (s.dropDue (.passage o)).setOutlet o x
  have hs₁ : ∀ j, (s₁.outlet j).latest = (s.outlet j).latest := fun j => by
    rw [State.outlet_setOutlet]
    split
    · next e => rw [← e]
    · rfl
  have hr := State.retireAll_retired (s := s₁) hs hwhole (fun j l hl => hlatest j l (hs₁ j ▸ hl)) hb .delivered
  have hconfirm : s₁.takePassage o = s₁.confirm o set := by
    unfold State.takePassage
    rw [show (s₁.outlet o).strokeSet = some set from (congrArg Outlet.strokeSet (State.outlet_setOutlet_self _ _ _)).trans hset]
  generalize hv : s₁.retireAll .delivered set.members = v at hr
  obtain ⟨htaken, hkeys, hrest⟩ := hr
  have hx : v.outlet o = x := by
    rw [hrest]
    exact State.outlet_setOutlet_self _ _ _
  rw [hfill] at hfull hwarn
  rw [hcommitted] at hemptied
  have heq := State.confirm_eq hv.symm hx hunits hfull hwarn hemptied
  obtain ⟨g, hg⟩ := State.grantDecision_spec (((v.countConfirm o set.members.length set.units).withLatches
    (if full || warn || emptied then 0x01 else 0)).setOutlet o { x.confirmed set.units with rack := if full then .full else if emptied then .swapReady else x.rack })
  refine ⟨_, _, g, ?_, hg, ⟨htaken.records, htaken.gens, htaken.service, htaken.ilc⟩, hkeys, ?_⟩
  · rw [exec_passage_new (by simp [heye]), State.eyeBlocks_of_clear (s := s.dropDue (.passage o)) heye]
    exact congrArg Host.Outcome.next (hconfirm.trans heq)
  · have hset := s.setOutlet_setOutlet o x { x.confirmed set.units with rack := if full then .full else if emptied then .swapReady else x.rack }
    have hlatches : s.tau.latches ||| (if (full || warn || emptied) = true then 0x01 else 0) = if (full || warn || emptied) = true then s.tau.latches ||| 0x01 else s.tau.latches := by
      cases full || warn || emptied
      · exact BitVec.or_zero
      · rfl
    rw [hfill, hcommitted, ← hlatches]
    clear hg heq hconfirm hv
    generalize v.tc = tc, v.service = service, v.ilc = ilc, v.tau.keys = keys at hrest htaken hkeys
    subst hrest
    exact (congrArg (fun w : State => { w with
      due := s.due.erase (.passage o)
      tc := tc
      service := service
      ilc := ilc
      tau := { s.tau with
        keys := keys
        latches := s.tau.latches ||| (if (full || warn || emptied) = true then 0x01 else 0)
        outlets := s.tau.outlets.set o.val { vget s.tau.outlets o with
          items := min 16777215 ((vget s.tau.outlets o).items + set.members.length)
          units := min 16777215 ((vget s.tau.outlets o).units + set.units) } } }) hset).trans rfl

/-! ### A removal, whatever the table -/

/-- Records that a retirement leaves wait where they waited. -/
theorem State.retire_noneWaiting {s : State} {o : OutletNo} (h : s.noneWaiting o) (c : RetireOutcome) (t : Tag) : (s.retire c t).noneWaiting o := by
  have hlink : ∀ (s u : State) (p : Record → Bool) lead n, u.noneWaiting o → (u.mapRecords p (s.relink lead n)).noneWaiting o := by
    intro s u p lead n hu r hr
    obtain ⟨q, hq, rfl⟩ := List.mem_map.mp hr
    have hsame : (s.relink lead n q).waitsAt o = q.waitsAt o := by
      unfold State.relink
      split <;> rfl
    split
    · rw [hsame]
      exact hu q hq
    · exact hu q hq
  have hleave : ∀ (u : State) r, u.noneWaiting o → (u.leaveCluster r).noneWaiting o := by
    intro u r hu
    unfold State.leaveCluster
    split
    · exact hu
    · exact hu
    · dsimp only
      split
      · exact hlink _ _ _ _ _ hu
      · exact hlink _ _ _ _ _ hu
  unfold State.retire
  split
  · exact h
  · intro r hr
    rw [State.drainCheck_tc] at hr
    exact hleave _ _ (fun q hq => h q (List.mem_filter.mp hq).1) r hr

theorem State.retireAll_noneWaiting {s : State} {o : OutletNo} (h : s.noneWaiting o) (c : RetireOutcome) (ts : List Tag) : (s.retireAll c ts).noneWaiting o := by
  induction ts generalizing s with
  | nil => exact h
  | cons t rest ih => exact ih (State.retire_noneWaiting h c t)

theorem GrantDecision.noneWaiting {s t : State} {g : List OutletNo} (h : GrantDecision t s g) {o : OutletNo} (hs : s.noneWaiting o) : t.noneWaiting o := by
  intro r hr
  rw [h.records] at hr
  obtain ⟨q, hq, rfl⟩ := List.mem_map.mp hr
  split
  · rfl
  · exact hs q hq

/-- A granted outlet keeps its rack (R113). -/
theorem Outlet.granted_rack (x : Outlet) : x.granted.rack = x.rack ∧ x.granted.rackKey = x.rackKey ∧ x.granted.fill = x.fill ∧ x.granted.missRun = x.missRun := by
  unfold Outlet.granted
  split <;> exact ⟨rfl, rfl, rfl, rfl⟩

/-- What is left of a rack's station, of a held set, and of their tallies, with no record waiting. -/
structure State.Cleared (t : State) (o : OutletNo) (fill missRun : Nat) (tau : Tau) : Prop where
  rack : (t.outlet o).rack = .absent
  rackKey : (t.outlet o).rackKey = none
  fill : (t.outlet o).fill = fill
  missRun : (t.outlet o).missRun = missRun
  waiting : t.noneWaiting o
  outletRacks : (vget t.tau.outlets o).racks = (vget tau.outlets o).racks
  keyRacks : ∀ k, (vget t.tau.keys k).racks = (vget tau.keys k).racks

theorem State.Cleared.paperwork {s t : State} {o : OutletNo} {fill missRun : Nat} {tau : Tau} (h : s.Cleared o fill missRun tau) (hp : Paperwork t s) (hw : t.noneWaiting o) :
    t.Cleared o fill missRun tau := by
  obtain ⟨-, -, hfill, hmiss, -, -, hkey⟩ := (hp.outlet o).same
  refine ⟨?_, hkey.trans h.rackKey, hfill.trans h.fill, hmiss.trans h.missRun, hw, ?_, fun k => (hp.racks k).trans (h.keyRacks k)⟩
  · obtain hr | ⟨hclosing, -⟩ := (hp.outlet o).rack
    · exact hr.trans h.rack
    · rw [h.rack] at hclosing
      cases hclosing
  · rw [hp.outletTallies]
    exact h.outletRacks

theorem State.Cleared.loseSet {s : State} {o : OutletNo} {fill missRun : Nat} {tau : Tau} (h : s.Cleared o fill missRun tau) : (s.loseSet o).Cleared o fill missRun tau := by
  unfold State.loseSet
  split
  · exact h
  · next set _ =>
    have hout : (s.modOutlet o Outlet.endSet).outlet o = (s.outlet o).endSet := State.outlet_modOutlet_self _ _ _
    have hend : (s.modOutlet o Outlet.endSet).Cleared o fill missRun tau := by
      refine ⟨?_, ?_, ?_, ?_, h.waiting, h.outletRacks, h.keyRacks⟩ <;> rw [hout]
      · exact h.rack
      · exact h.rackKey
      · exact h.fill
      · exact h.missRun
    have hrelease : ((s.modOutlet o Outlet.endSet).release o set.units).noneWaiting o := by
      rw [State.release_eq]
      exact h.waiting
    exact hend.paperwork ((Paperwork.retireAll ..).trans (.release ..)) (State.retireAll_noneWaiting hrelease .lost set.members)

/-- The station after the rack is counted (R94, steps 4 and 5). -/
theorem State.Cleared.rackGone {s : State} {o : OutletNo} {fill missRun : Nat} {tau : Tau} (h : s.Cleared o fill missRun tau) (key : Option KeyNo) (hb : tau.bounded) :
    ((s.rackGone o key).outlet o).rack = .absent ∧ ((s.rackGone o key).outlet o).rackKey = none ∧ ((s.rackGone o key).outlet o).fill = 0
      ∧ ((s.rackGone o key).outlet o).missRun = missRun ∧ (s.rackGone o key).noneWaiting o
      ∧ (vget (s.rackGone o key).tau.outlets o).racks = min 16777215 ((vget tau.outlets o).racks + (if 0 < fill then 1 else 0))
      ∧ ∀ k, (vget (s.rackGone o key).tau.keys k).racks = min 16777215 ((vget tau.keys k).racks + (if 0 < fill ∧ key = some k then 1 else 0)) := by
  have hout : (s.rackGone o key).outlet o = { s.outlet o with fill := 0 } := State.outlet_setOutlet_self s o _
  have hobound := (hb.2.1 o).2.2.2.2.2.2
  rw [hout]
  refine ⟨h.rack, h.rackKey, rfl, h.missRun, h.waiting, ?_, fun k => ?_⟩
  · unfold State.rackGone
    dsimp only
    rw [h.fill]
    by_cases hf : fill = 0
    · rw [if_pos hf, if_neg (by omega), h.outletRacks, Nat.add_zero, Nat.min_eq_right hobound]
    · rw [if_neg hf, if_pos (by omega)]
      show (vget (vset s.tau.outlets o _) o).racks = _
      rw [vget_vset_self, ← h.outletRacks]
  · have hkbound := (hb.1 k).2.2.2.2
    unfold State.rackGone
    dsimp only
    rw [h.fill]
    by_cases hf : fill = 0
    · rw [if_pos hf, if_neg (by omega), h.keyRacks, Nat.add_zero, Nat.min_eq_right hkbound]
    · rw [if_neg hf]
      cases key with
      | none => rw [if_neg (by simp), h.keyRacks, Nat.add_zero, Nat.min_eq_right hkbound]
      | some i =>
        show (vget (vset s.tau.keys i _) k).racks = _
        rw [vget_vset]
        by_cases hi : i = k
        · rw [if_pos hi, if_pos ⟨by omega, by rw [hi]⟩, hi, ← h.keyRacks]
        · rw [if_neg hi, if_neg (by simp [hi]), h.keyRacks, Nat.add_zero, Nat.min_eq_right hkbound]

/-- The outlet as its rack leaves (R94, step 1). -/
def Outlet.rackless (x : Outlet) : Outlet := { x with rackFilter := { accepted := some false, run := x.rackFilter.run, count := 0 }, rack := .absent, rackKey := none }

/-- The re-routes of a removal leave the station without a rack and without a record waiting (R94, step 2). -/
theorem State.cleared_loseAcceptance (s : State) (o : OutletNo) :
    ((s.withOutlet o (s.outlet o).rackless).loseAcceptance o).Cleared o (s.outlet o).fill (s.outlet o).missRun s.tau := by
  have hout : (s.withOutlet o (s.outlet o).rackless).outlet o = (s.outlet o).rackless := State.outlet_setOutlet_self s o _
  have hp := Paperwork.loseAcceptance (s.withOutlet o (s.outlet o).rackless) o
  have hsame := (hp.outlet o).same
  rw [hout] at hsame
  obtain ⟨-, -, hfill, hmiss, -, -, hkey⟩ := hsame
  refine ⟨?_, hkey, hfill, hmiss, State.loseAcceptance_noneWaiting ?_, by rw [hp.outletTallies]; rfl, hp.racks⟩
  · have hrack := (hp.outlet o).rack
    rw [hout] at hrack
    obtain h | ⟨h, -⟩ := hrack
    · exact h
    · cases h
  · rw [hout]
    exact Outlet.notOpen_of_rack (by simp [Outlet.rackless])

/-! ### A stroke set lost with its rack -/

/-- A held set at a station whose rack has gone: its units go and its records are retired LOST (R94, step 3). -/
theorem State.loseSet_held {s : State} {o : OutletNo} {set : StrokeSet} (h : (s.outlet o).strokeSet = some set) (hrack : (s.outlet o).rack = .absent) :
    s.loseSet o = (s.setOutlet o { s.outlet o with committed := (s.outlet o).committed - set.units, strokeSet := none }).retireAll .lost set.members := by
  have hout : (s.modOutlet o Outlet.endSet).outlet o = (s.outlet o).endSet := State.outlet_modOutlet_self _ _ _
  have hne : ¬((s.outlet o).endSet.rack = .closing ∧ (s.outlet o).endSet.committed ≤ set.units) := fun h => by
    rw [show (s.outlet o).endSet.rack = .absent from hrack] at h
    cases h.1
  unfold State.loseSet
  rw [h]
  dsimp only
  rw [State.release_eq, hout, Outlet.emptiedBy, if_neg hne, State.withLatches_zero, Outlet.less, if_neg hne, State.modOutlet_eq, State.withOutlet_eq, State.withOutlet_eq,
    State.setOutlet_setOutlet]
  rfl

theorem State.walksTo_latest {s t : State} {ms : List Record} {lead : Record} {audit : Bool} {start : Option RouteIx} (h : s.walksTo ms lead audit start t) {j : OutletNo} {l : Latest}
    (hl : (t.outlet j).latest = some l) : (s.outlet j).latest = some l ∨ l.owner = lead.tag := by
  have hafter : ∀ last result, ((s.afterWalk ms lead audit last result).outlet j).latest = some l → (s.outlet j).latest = some l ∨ l.owner = lead.tag := by
    intro last result h
    cases result with
    | accepted o i f =>
      have hout : (s.afterWalk ms lead audit last (.accepted o i f)).outlet j = if o = j then { s.outlet o with
          committed := (s.outlet o).committed + (ms.map (fun q => (s.classEntry q.cls).weight)).sum, latest := some { point := f, owner := lead.tag } } else s.outlet j :=
        State.outlet_setOutlet _ _ _ _
      rw [hout] at h
      split at h
      · cases h
        exact .inr rfl
      · exact .inl h
    | chainEnd => exact .inl h
    | noChain => exact .inl h
    | planCheck kind i => exact .inl h
  unfold State.walksTo at h
  cases start with
  | none =>
    rw [h] at hl
    exact hafter none .noChain hl
  | some i =>
    obtain ⟨result, last, -, rfl⟩ := h
    exact hafter last result hl

theorem State.reroutesTo_latest {s t : State} {o : OutletNo} {lead : Record} (h : s.reroutesTo o lead t) {j : OutletNo} {l : Latest} (hl : (t.outlet j).latest = some l) :
    (s.outlet j).latest = some l ∨ l.owner = lead.tag := by
  obtain hw | hw := State.walksTo_latest h hl
  · refine .inl ?_
    have hout := State.outlet_setOutlet (s.withEach (s.membersOf lead.tag) fun q => { q with
      state := .pending, route := none, waypoint := none, flags := { q.flags with rerouted := true } }) o j ((s.outlet o).without lead.tag (routeUnits (s.membersOf lead.tag)))
    replace hw := (congrArg Outlet.latest hout).symm.trans hw
    split at hw
    · next e =>
      subst e
      unfold Outlet.without at hw
      dsimp only at hw
      split at hw
      · cases hw
      · exact hw
    · exact hw
  · exact .inr hw

/-- Records that stand apart from re-routes: whole clusters that no re-route leads and no latest fire point names. -/
structure State.Apart (s : State) (ts : List Tag) : Prop where
  table : s.tableLaw
  whole : ∀ q ∈ s.tc.records, q.leaderTag ∈ ts ↔ q.tag ∈ ts
  latest : ∀ j l, (s.outlet j).latest = some l → l.owner ∉ ts

/-- Re-routes leave apart what stands apart from them. -/
theorem ReroutesEach.apart {o : OutletNo} {s u : State} {leads ts : List Tag} (h : ReroutesEach o s leads u) (hs : s.Apart ts) (hleads : ∀ t ∈ leads, t ∉ ts) :
    u.Apart ts ∧ u.tc.records.map Record.tag = s.tc.records.map Record.tag := by
  induction h with
  | none => exact ⟨hs, rfl⟩
  | @next s w u lead rest hl hre _ ih =>
    have hout := hleads lead.tag List.mem_cons_self
    obtain ⟨f, hf, htc⟩ := State.reroutesTo_records hre
    have htags : w.tc.records.map Record.tag = s.tc.records.map Record.tag := by
      rw [htc]
      exact State.withEach_tags fun q => (hf q).tag
    have hw : w.Apart ts := by
      refine ⟨State.tableLaw_of_tags htags hs.table, fun q' hq' => ?_, fun j l hlat => ?_⟩
      · rw [htc] at hq'
        obtain ⟨q, hq, rfl⟩ := List.mem_map.mp hq'
        by_cases hm : q.tag ∈ (s.membersOf lead.tag).map Record.tag
        · have hled := (State.mem_membersOf_tags hs.table hq).mp hm
          have hq' : q.tag ∉ ts := fun hin => hout (hled ▸ (hs.whole q hq).mpr hin)
          rw [if_pos hm, (hf q).tag]
          refine iff_of_false (fun hin => ?_) hq'
          obtain he | he := (hf q).leader
          · rw [he, hled] at hin
            exact hout hin
          · rw [he] at hin
            exact hq' hin
        · rw [if_neg hm]
          exact hs.whole q hq
      · obtain h | h := State.reroutesTo_latest hre hlat
        · exact hs.latest j l h
        · rw [h]
          exact hout
    obtain ⟨hu, hut⟩ := ih hw fun t ht => hleads t (List.mem_cons_of_mem _ ht)
    exact ⟨hu, hut.trans htags⟩

/-! ### The removal of a rack -/

/-- A set that books in order hold at an outlet is whole clusters, and no re-route there leads one of them (R38, R126). -/
theorem State.booksLaw.set_whole {s : State} (hs : s.booksLaw) {o : OutletNo} {set : StrokeSet} (h : (s.outlet o).strokeSet = some set) :
    s.wholeClusters set.members ∧ ∀ t ∈ s.clustersAt o, t ∉ set.members := by
  have hfired := hs.fired o
  rw [h] at hfired
  obtain ⟨hn, hmem, -⟩ := hfired
  have hat : ∀ r ∈ s.tc.records, r.tag ∈ set.members ↔ r.isAt .fired o := fun r hr => by
    rw [hmem]
    refine ⟨fun ⟨q, hq, ht, hat⟩ => ?_, fun hat => ⟨r, hr, rfl, hat⟩⟩
    rw [State.eq_of_tag hs.slots hr hq ht] at hat
    exact hat
  have hlead : ∀ r ∈ s.tc.records, r.leaderTag ∈ set.members ↔ r.tag ∈ set.members := fun r hr => by
    obtain ⟨l, hl, hlt, -, hst, hroute⟩ := hs.clustered.leader r hr
    rw [← hlt, hat l hl, hat r hr, Record.isAt, Record.isAt, hst]
    refine and_congr_right fun _ => ?_
    have hfst : ∀ x : Option Route, x.map (·.outlet) = (x.map fun x => (x.outlet, x.firePoint)).map Prod.fst := fun x => by cases x <;> rfl
    rw [hfst, hfst, hroute]
  refine ⟨⟨hn, fun t ht => ?_, hlead⟩, fun t ht hin => ?_⟩
  · obtain ⟨r, hr, hrt, -⟩ := (hmem t).mp ht
    exact ⟨r, hr, hrt⟩
  · rw [State.clustersAt, List.mem_eraseDups] at ht
    obtain ⟨r, hpicked, rfl⟩ := List.mem_map.mp ht
    obtain ⟨hr, hw⟩ := List.mem_filter.mp hpicked
    obtain ⟨hst, -⟩ := Record.waitsAt_iff.mp hw
    have hfired := ((hat r hr).mp ((hlead r hr).mp hin)).1
    rw [hfired] at hst
    obtain h | h := hst <;> cases h

/-- A removal by its steps, up to the grant decision (R94). -/
theorem State.rackRemoved_steps (s : State) (o : OutletNo) : ∃ w : State,
    w = (((s.withOutlet o (s.outlet o).rackless).loseAcceptance o).loseSet o).rackGone o (s.outlet o).rackKey
      ∧ s.rackRemoved o = if (s.outlet o).strokeSet.isSome = true then w.grantDecision else w :=
  ⟨_, rfl, s.rackRemoved_eq o⟩

/-- A removal of a rack whose held set stands among records that wait: re-routes, the set retired LOST, the count, and a grant decision (R94). -/
theorem State.booksLaw.removal {s : State} (hbooks : s.booksLaw) {o : OutletNo} {set : StrokeSet} (hrack : (s.outlet o).rackFilter.accepted = some true)
    (hset : (s.outlet o).strokeSet = some set) (hahead : s.endsAhead s.bpu.position s.tc.records) (hlatest : ∀ j l, (s.outlet j).latest = some l → l.owner ∉ set.members)
    (hb : s.tau.bounded) : ∃ u v t g, exec (.rackRemoval o) s = .next t
      ∧ ReroutesEach o ((s.dropDue (.rackRemoval o)).withOutlet o (s.outlet o).rackless) (s.clustersAt o) u
      ∧ TakenOut v u set.members
      ∧ (∀ k, vget v.tau.keys k = { vget u.tau.keys k with lost := min 16777215 ((vget u.tau.keys k).lost + u.keyCountIn set.members k) })
      ∧ v = { u.withOutlet o { u.outlet o with committed := (u.outlet o).committed - set.units, strokeSet := none } with
              tc := v.tc
              service := v.service
              ilc := v.ilc
              tau := { u.tau with keys := v.tau.keys } }
      ∧ GrantDecision t (v.rackGone o (s.outlet o).rackKey) g := by
  obtain ⟨s₁, hs₁⟩ : ∃ s₁, s₁ = (s.dropDue (.rackRemoval o)).withOutlet o (s.outlet o).rackless := ⟨_, rfl⟩
  have htc : s₁.tc = s.tc := by rw [hs₁]; rfl
  have hout : ∀ j, s₁.outlet j = if o = j then (s.outlet o).rackless else s.outlet j := fun j => by
    rw [hs₁]
    exact State.outlet_setOutlet _ _ _ _
  have hclusters : s₁.clustersAt o = s.clustersAt o := by rw [hs₁]; rfl
  obtain ⟨hwhole, hleads⟩ := hbooks.set_whole hset
  obtain ⟨u, hu⟩ : ∃ u, u = s₁.loseAcceptance o := ⟨_, rfl⟩
  have hre : ReroutesEach o s₁ (s.clustersAt o) u := by
    rw [hu, ← hclusters]
    exact (hbooks.clustered.of_records (congrArg Tc.records htc)).loseAcceptance (by rw [hs₁]; exact hahead) o
  have hwork : Work u s₁ := hu ▸ Work.loseAcceptance s₁ o
  have hpaper : Paperwork u s₁ := hu ▸ Paperwork.loseAcceptance s₁ o
  have hsame := (hpaper.outlet o).same
  have hrackgone := (hpaper.outlet o).rack
  rw [hout, if_pos rfl] at hsame hrackgone
  have huset : (u.outlet o).strokeSet = some set := hsame.2.1.trans hset
  have hurack : (u.outlet o).rack = .absent := hrackgone.elim id fun h => by cases h.1
  have hapart : s₁.Apart set.members := by
    refine ⟨by rw [State.tableLaw, htc]; exact hbooks.slots, by rw [htc]; exact hwhole.2.2, fun j l hl => hlatest j l ?_⟩
    rw [hout] at hl
    split at hl
    · next e => exact e ▸ hl
    · exact hl
  obtain ⟨⟨hutable, huwhole, hulatest⟩, htags⟩ := hre.apart hapart hleads
  let b := u.setOutlet o { u.outlet o with committed := (u.outlet o).committed - set.units, strokeSet := none }
  have hblatest : ∀ j l, (b.outlet j).latest = some l → l.owner ∉ set.members := fun j l hl => by
    rw [State.outlet_setOutlet] at hl
    split at hl
    · next e => exact hulatest j l (e ▸ hl)
    · exact hulatest j l hl
  have hlive : ∀ t ∈ set.members, ∃ r ∈ b.tc.records, r.tag = t := fun t ht => by
    have hin : t ∈ u.tc.records.map Record.tag := by
      rw [htags, htc]
      exact List.mem_map.mpr (hwhole.2.1 t ht)
    exact List.mem_map.mp hin
  have hr := State.retireAll_retired (s := b) hutable ⟨hwhole.1, hlive, huwhole⟩ hblatest (hwork.tau.bounded (by rw [hs₁]; exact hb)) .lost
  obtain ⟨w, hw, hremoved⟩ := (s.dropDue (.rackRemoval o)).rackRemoved_steps o
  rw [if_pos (by rw [show ((s.dropDue (.rackRemoval o)).outlet o).strokeSet = some set from hset]; rfl)] at hremoved
  obtain ⟨g, hg⟩ := State.grantDecision_spec w
  have hstep : w = ((b.retireAll .lost set.members).rackGone o (s.outlet o).rackKey) := by
    rw [← State.loseSet_held huset hurack, hu, hs₁]
    exact hw
  rw [hstep] at hg
  refine ⟨u, b.retireAll .lost set.members, _, g, ?_, by rw [← hs₁]; exact hre, ⟨hr.taken.records, hr.taken.gens, hr.taken.service, hr.taken.ilc⟩, hr.keys, hr.rest, hg⟩
  rw [exec_rackRemoval_new hrack, hremoved, hstep]

/-- The count of a rack touches its outlet's tally and its key's alone (R197). -/
theorem State.rackGone_tau (s : State) (o : OutletNo) (key : Option KeyNo) :
    (s.rackGone o key).tau.device = s.tau.device ∧ (s.rackGone o key).tau.latches = s.tau.latches ∧ (s.rackGone o key).tau.enables = s.tau.enables
      ∧ (s.rackGone o key).tau.lineMap = s.tau.lineMap
      ∧ (∀ k, vget (s.rackGone o key).tau.keys k = { vget s.tau.keys k with racks := (vget (s.rackGone o key).tau.keys k).racks })
      ∧ ∀ j, vget (s.rackGone o key).tau.outlets j = { vget s.tau.outlets j with racks := (vget (s.rackGone o key).tau.outlets j).racks }
        ∧ (j ≠ o → vget (s.rackGone o key).tau.outlets j = vget s.tau.outlets j) := by
  have hkeys : ∀ (i k : KeyNo), vget (vset s.tau.keys i { vget s.tau.keys i with racks := min 16777215 ((vget s.tau.keys i).racks + 1) }) k
      = { vget s.tau.keys k with racks := (vget (vset s.tau.keys i { vget s.tau.keys i with racks := min 16777215 ((vget s.tau.keys i).racks + 1) }) k).racks } := fun i k => by
    rw [vget_vset]
    split
    · next e => rw [e]
    · rfl
  have houtlets : ∀ j, vget (vset s.tau.outlets o { vget s.tau.outlets o with racks := min 16777215 ((vget s.tau.outlets o).racks + 1) }) j
      = { vget s.tau.outlets j with racks := (vget (vset s.tau.outlets o { vget s.tau.outlets o with racks := min 16777215 ((vget s.tau.outlets o).racks + 1) }) j).racks } := fun j => by
    rw [vget_vset]
    split
    · next e => rw [e]
    · rfl
  unfold State.rackGone
  dsimp only
  by_cases hf : (s.outlet o).fill = 0
  · rw [if_pos hf]
    exact ⟨rfl, rfl, rfl, rfl, fun _ => rfl, fun _ => ⟨rfl, fun _ => rfl⟩⟩
  · rw [if_neg hf]
    refine ⟨rfl, rfl, rfl, rfl, fun k => ?_, fun j => ⟨houtlets j, fun hne => vget_vset_ne _ (Ne.symm hne) _⟩⟩
    cases key with
    | none => rfl
    | some i => exact hkeys i k

/-- No rack of no fill is counted (R94). -/
theorem State.rackGone_empty {s : State} {o : OutletNo} {key : Option KeyNo} (h : (s.outlet o).fill = 0) : s.rackGone o key = s := by
  have hsame : ({ s.outlet o with fill := 0 } : Outlet) = s.outlet o := by rw [← h]
  unfold State.rackGone
  rw [if_pos h, hsame, State.withOutlet_eq, State.setOutlet_outlet]

/-- A removal at a station where nothing waits (R94). -/
theorem State.rackRemoved_idle {s w : State} {o : OutletNo} (h : w = (((s.withOutlet o (s.outlet o).rackless).loseAcceptance o).loseSet o).rackGone o (s.outlet o).rackKey)
    (hnone : s.noneWaiting o) : w = ((s.withOutlet o (s.outlet o).rackless).loseSet o).rackGone o (s.outlet o).rackKey := by
  rw [State.loseAcceptance_of_none (s := s.withOutlet o (s.outlet o).rackless) hnone] at h
  exact h

/-- Settles O15: the steps of a removal in their order. -/
theorem rackRemovalClearsTheStation : Obligations.RackRemovalClearsTheStation := by
  refine ⟨fun o s => ⟨fun hrack hb => ?_, exec_rackRemoval_old⟩, fun o s set hrack hnone hset hfill hs hwhole hlatest hb => ?_⟩
  · obtain ⟨s₀, hs₀⟩ : ∃ s₀, s₀ = s.dropDue (.rackRemoval o) := ⟨_, rfl⟩
    have hsout : ∀ j, s₀.outlet j = s.outlet j := fun j => by rw [hs₀]; rfl
    have hgone := ((s₀.cleared_loseAcceptance o).loseSet).rackGone (s₀.outlet o).rackKey (by rw [hs₀]; exact hb)
    obtain ⟨w, hw, hremoved⟩ := s₀.rackRemoved_steps o
    rw [← hw, hsout, show s₀.tau = s.tau by rw [hs₀]; rfl] at hgone
    obtain ⟨h1, h2, h3, h4, h5, h6, h7⟩ := hgone
    rw [hsout] at hremoved
    refine ⟨_, exec_rackRemoval_new hrack, ?_⟩
    rw [← hs₀, hremoved]
    cases hset : (s.outlet o).strokeSet with
    | none =>
      refine ⟨h1, h2, h3, h5, h4, h6, h7, fun _ hnone => ?_⟩
      have hidle := State.rackRemoved_idle hw (by rw [hs₀]; exact hnone)
      have hout : (s₀.withOutlet o (s₀.outlet o).rackless).outlet o = (s₀.outlet o).rackless := State.outlet_setOutlet_self _ _ _
      rw [State.loseSet_none (by rw [hout, hsout]; exact hset)] at hidle
      have htau := State.rackGone_tau (s₀.withOutlet o (s₀.outlet o).rackless) o (s₀.outlet o).rackKey
      rw [← hidle] at htau
      refine ⟨?_, ?_⟩
      · have hrest : w = { (s₀.withOutlet o (s₀.outlet o).rackless).withOutlet o { (s₀.withOutlet o (s₀.outlet o).rackless).outlet o with fill := 0 } with tau := w.tau } := by
          rw [hidle]
          rfl
        rw [hout, State.withOutlet_eq, State.withOutlet_eq, State.setOutlet_setOutlet, hsout, hs₀] at hrest
        exact hrest
      · rw [hs₀] at htau
        exact htau
    | some set =>
      obtain ⟨g, hg⟩ := State.grantDecision_spec w
      have hsame : (w.grantDecision.outlet o).rack = (w.outlet o).rack ∧ (w.grantDecision.outlet o).rackKey = (w.outlet o).rackKey
          ∧ (w.grantDecision.outlet o).fill = (w.outlet o).fill ∧ (w.grantDecision.outlet o).missRun = (w.outlet o).missRun := by
        rw [hg.outlets]
        split
        · exact (w.outlet o).granted_rack
        · exact ⟨rfl, rfl, rfl, rfl⟩
      have hracks : (vget w.grantDecision.tau.outlets o).racks = (vget w.tau.outlets o).racks := by
        rw [hg.strokes]
        split <;> rfl
      have hkeys : w.grantDecision.tau.keys = w.tau.keys := by rw [hg.rest]
      rw [if_pos (show (some set).isSome = true from rfl), hkeys, hracks, hsame.1, hsame.2.1, hsame.2.2.1, hsame.2.2.2]
      exact ⟨h1, h2, h3, hg.noneWaiting h5, h4, h6, h7, fun h => by cases h⟩
  · obtain ⟨s₀, hs₀⟩ : ∃ s₀, s₀ = s.dropDue (.rackRemoval o) := ⟨_, rfl⟩
    have hsout : ∀ j, s₀.outlet j = s.outlet j := fun j => by rw [hs₀]; rfl
    obtain ⟨w, hw, hremoved⟩ := s₀.rackRemoved_steps o
    have hidle := State.rackRemoved_idle hw (by rw [hs₀]; exact hnone)
    have hout : (s₀.withOutlet o (s₀.outlet o).rackless).outlet o = (s.outlet o).rackless := (State.outlet_setOutlet_self _ _ _).trans (by rw [hsout])
    rw [State.loseSet_held (by rw [hout]; exact hset) (by rw [hout]; rfl), hout, State.withOutlet_eq, State.setOutlet_setOutlet] at hidle
    obtain ⟨b, hb'⟩ : ∃ b, b = s₀.setOutlet o { (s.outlet o).rackless with committed := (s.outlet o).rackless.committed - set.units, strokeSet := none } := ⟨_, rfl⟩
    have hbout : ∀ j, (b.outlet j).latest = (s.outlet j).latest ∧ (b.outlet o).fill = 0 := fun j => by
      rw [hb', State.outlet_setOutlet, State.outlet_setOutlet_self, hsout]
      refine ⟨?_, hfill⟩
      split
      · next e => rw [← e]; rfl
      · rfl
    have hr := State.retireAll_retired (s := b) (by rw [hb', hs₀]; exact hs) (by rw [hb', hs₀]; exact hwhole) (fun j l hl => hlatest j l ((hbout j).1 ▸ hl)) (by rw [hb', hs₀]; exact hb) .lost
    rw [← hb', State.rackGone_empty (by rw [hr.rest]; exact (hbout o).2)] at hidle
    rw [← hidle] at hr
    obtain ⟨g, hg⟩ := State.grantDecision_spec w
    rw [hb', hs₀] at hr
    refine ⟨w, _, g, ?_, hg, ⟨hr.taken.records, hr.taken.gens, hr.taken.service, hr.taken.ilc⟩, hr.keys, hr.rest, fun o s set => ?_⟩
    · rw [exec_rackRemoval_new hrack, ← hs₀, hremoved, hsout, if_pos (by rw [hset]; rfl)]
    · exact fun hrack hset hbooks hahead hlatest hb => hbooks.removal hrack hset hahead hlatest hb

end Sys2Proof.Machine
end

section
/-! PROOFS. Lone records at their waypoints, and a tick that reaches several. -/

namespace Sys2Proof.Machine

/-! ### A record alone -/

/-- A ROUTED or DUE record that is its whole cluster. -/
theorem State.booked_lone {s : State} {r : Record} {route : Route} (hm : s.membersOf r.tag = [r]) (hst : r.state = .routed ∨ r.state = .due) (hroute : r.route = some route) :
    s.BookedAt route.outlet r.tag [r] where
  members := hm
  nonempty := List.cons_ne_nil _ _
  routed q hq := by
    rw [List.mem_singleton.mp hq]
    exact ⟨route, hroute, rfl⟩
  waits q hq := by
    rw [List.mem_singleton.mp hq]
    exact hst

theorem State.loneAt.alone {u : State} (hu : u.tableLaw) {r : Record} (h : u.loneAt r u.bpu.position) (hst : r.state = .routed ∨ r.state = .due) {route : Route}
    (hroute : r.route = some route) (hahead : atOrBeyond u.bpu.position (u.endPoint r) = false) : u.FiresAlone route.outlet r.tag [r] where
  table := hu
  booked := State.booked_lone (u.loneAt_members hu h) hst hroute
  only q hq hw := by
    obtain ⟨hr, -, -, hothers⟩ := h
    by_contra hne
    exact (hothers q hq fun e => hne (List.mem_singleton.mpr (State.eq_of_tag hu hr hq e))).1 hw
  ahead q hq := by
    rw [List.mem_singleton.mp hq]
    exact hahead

theorem routeUnits_lone {r : Record} {route : Route} (h : r.route = some route) : routeUnits [r] = route.units := by
  simp [routeUnits, h]

/-- A lone record whose request is abandoned (R119). -/
theorem State.abandoned_lone {u : State} (hu : u.tableLaw) {r : Record} (hr : r ∈ u.tc.records) {route : Route} (hroute : r.route = some route) (why : CarryReason) :
    u.abandoned route.outlet r.tag [r] why = (((u.withRecord r.tag (u.ride why r)).withOutlet route.outlet ((u.outlet route.outlet).without r.tag route.units)).withOutletTally route.outlet
      { vget u.tau.outlets route.outlet with abandoned := min 16777215 ((vget u.tau.outlets route.outlet).abandoned + 1) }).withLatches
        ((u.outlet route.outlet).emptiedBy route.units) := by
  rw [State.abandoned, State.withEach_single hu hr, routeUnits_lone hroute]

/-- A lone record's request asked (R29, R118). -/
theorem State.asked_lone {u : State} (hu : u.tableLaw) {r : Record} (hr : r ∈ u.tc.records) {route : Route} (hroute : r.route = some route) (late : Pos) :
    u.asked route.outlet [r] late = (u.withRecord r.tag { r with state := .due, waypoint := some late }).withOutlet route.outlet
      { u.outlet route.outlet with request := some (.deadline [r.tag] late route.units) } := by
  rw [State.asked, State.withEach_single hu hr, routeUnits_lone hroute]
  rfl

/-- Settles O22: the lone record's request, where no other waits. -/
theorem firePointFiresALoneRecord : Obligations.FirePointFiresALoneRecord := by
  intro s a b r route x u late htick hs hlone hst hroute hfire hx hu hlate htol hend hquiet
  have hur : r ∈ u.tc.records := by rw [hu]; exact hlone.1
  have hus : u.tableLaw := by rw [hu]; exact hs
  have hout : u.outlet route.outlet = x := by rw [hu, hx]; rfl
  have hfree : x.request = none := by rw [hx]; exact hquiet _
  have hasks : u.Asks route.outlet r.tag [r] late := {
    alone := State.loneAt.alone hus (by rw [hu]; exact hlone) (.inl hst) hroute (by rw [hu]; exact hend)
    state := fun q hq => by rw [List.mem_singleton.mp hq]; exact hst
    reached := ⟨r, List.mem_singleton_self r, by rw [hu]; exact hlone.2.2.1⟩
    point := fun q hq y hy => by
      rw [List.mem_singleton.mp hq, hroute] at hy
      cases hy
      rw [hu]
      exact hfire
    free := by rw [hout]; exact hfree
    limit := by rw [hlate, hout, hu, hfire]; rfl
    tolerance := by rw [hout]; exact htol
    leader := List.mem_singleton_self _ }
  rw [State.exec_plainTick htick, ← hu]
  refine ⟨fun hidle hset hslot => ?_, fun hbehind => ?_⟩
  · rw [hasks.reach_granted (by rw [hu]; exact hquiet) (by rw [hout]; exact hidle) (by rw [hout]; exact hset) (by rw [hu]; exact hslot),
      State.asked_grant (by rw [hout]; exact hfree), State.withEach_single hus hur, routeUnits_lone hroute, hout]
    simp only [List.map_cons, List.map_nil, List.mem_singleton]
    rw [hu]
    rfl
  · have hfires : u.fireCluster r.tag = u.asked route.outlet [r] late := by
      rw [← or_assoc] at hbehind
      obtain hbehind | hfull := hbehind
      · exact hasks.fire_behind (by rw [hout]; exact hbehind)
      · exact hasks.fire_full (by rw [hu]; exact hfull)
    obtain ⟨hwaits, hlapses⟩ := hasks.reach_waits hfires
    rw [hout] at hwaits hlapses
    refine ⟨fun h => ?_, fun h => ?_⟩
    · rw [hwaits h, State.asked_lone hus hur hroute, hout]
    · have hwithout : x.without r.tag route.units = { x.less route.units with latest := if ∃ l, x.latest = some l ∧ l.owner = r.tag then none else x.latest } := by
        unfold Outlet.without
        rw [hfree, ite_self]
        exact congrArg (fun q => ({ x.less route.units with latest := _, request := q } : Outlet)) hfree.symm
      rw [hlapses h, State.abandoned_lone hus hur hroute, hout, hwithout, hu]
      rfl

/-! ### A CARRIED record at its end point -/

/-- A lone record retired END, before DRAINING is judged (R23, R40, R41, R196). -/
def State.ended (s : State) (r : Record) : State :=
  { s with
    tc := { records := s.tc.records.filter (fun q => q.tag != r.tag), gens := s.tc.gens.set r.slot.val (vget s.tc.gens r.slot + 1) }
    tau := { s.tau with keys := s.tau.keys.set r.key.val { vget s.tau.keys r.key with ended := min 16777215 ((vget s.tau.keys r.key).ended + 1) } } }

theorem State.retire_ended {s : State} (hs : s.tableLaw) {r : Record} (hr : r ∈ s.tc.records) (hc : r.cluster = none) : s.retire .ended r.tag = (s.ended r).drainCheck :=
  State.retire_unlinked hs hr hc .ended

/-- The slot of the one live record of a tag, counted (R23). -/
theorem State.slotCountIn_one {s : State} (hs : s.tableLaw) {r : Record} (hr : r ∈ s.tc.records) (i : Slot) : s.slotCountIn [r.tag] i = if r.slot = i then 1 else 0 := by
  have hone : s.tc.records.filter (fun q => [r.tag].contains q.tag && q.slot == i) = [r].filter (fun q => q.slot == i) := by
    rw [← State.filter_tag hs hr, List.filter_filter]
    exact List.filter_congr fun q _ => by simp only [List.contains_cons, List.contains_nil, Bool.or_false, Bool.and_comm]
  rw [State.slotCountIn, List.countP_eq_length_filter, hone, List.filter_singleton]
  by_cases h : r.slot = i
  · rw [if_pos h, beq_iff_eq.mpr h]
    rfl
  · rw [if_neg h, beq_eq_false_iff_ne.mpr h]
    rfl

/-- A table without one lone record, and the end of DRAINING with it. -/
theorem State.takenOut_drained {s w : State} (hs : s.tableLaw) {r : Record} (hr : r ∈ s.tc.records)
    (hw : w.tc = { records := s.tc.records.filter (fun q => q.tag != r.tag), gens := vset s.tc.gens r.slot (vget s.tc.gens r.slot + 1) }) (hservice : w.service = s.service)
    (hilc : w.ilc = s.ilc) : TakenOut w.drainCheck s [r.tag] where
  records := by
    rw [State.drainCheck_tc, hw]
    exact List.filter_congr fun q _ => by simp only [List.contains_cons, List.contains_nil, Bool.or_false, bne]
  gens i := by
    rw [State.drainCheck_tc, State.slotCountIn_one hs hr, hw, vget_vset]
    by_cases h : r.slot = i
    · rw [if_pos h, if_pos h, h]
      rfl
    · rw [if_neg h, if_neg h]
      exact (BitVec.add_zero _).symm
  service := by
    obtain ⟨hd, hempty, hnew, -⟩ | ⟨hnot, hnew, -⟩ := State.drainCheck_cases w
    · rw [hnew, if_pos ⟨hservice ▸ hd, hempty, List.cons_ne_nil _ _⟩]
    · rw [hnew, if_neg fun h => hnot ⟨hservice.symm ▸ h.1, h.2.1⟩, hservice]
  ilc := by
    obtain ⟨hd, hempty, -, hnew⟩ | ⟨hnot, -, hnew⟩ := State.drainCheck_cases w
    · rw [hnew, if_pos ⟨hservice ▸ hd, hempty, List.cons_ne_nil _ _⟩, hilc]
    · rw [hnew, if_neg fun h => hnot ⟨hservice.symm ▸ h.1, h.2.1⟩, hilc]

theorem State.ended_takenOut {s : State} (hs : s.tableLaw) {r : Record} (hr : r ∈ s.tc.records) : TakenOut (s.ended r).drainCheck s [r.tag] :=
  State.takenOut_drained hs hr rfl rfl rfl

/-- The tick that reaches only the end point of a lone CARRIED record (R29, R41). -/
theorem State.reach_ended {u : State} (hu : u.tableLaw) {r : Record} (h : u.loneAt r u.bpu.position) (hst : r.state = .carried) :
    u.reachWaypoints = (u.ended r).drainCheck := by
  obtain ⟨hr, hc, hw, hothers⟩ := h
  have honly : ∀ q ∈ u.tc.records, q.waypoint = some u.bpu.position → q ∈ [r] := fun q hq hw => by
    by_contra hne
    exact (hothers q hq fun e => hne (List.mem_singleton.mpr (State.eq_of_tag hu hr hq e))).1 hw
  have hlead : r.leaderTag = r.tag := by rw [Record.leaderTag, hc]
  have hone := State.reachKind_one (st := .carried) ⟨r, hr, hlead, hst, hw⟩ (fun q hq _ hw => by rw [List.mem_singleton.mp (honly q hq hw), hlead]) (fun s t => s.retire .ended t)
  have hafter : ∀ st, (u.ended r).drainCheck.NoneAt st u.bpu.position := fun st q hq _ hw => by
    rw [State.drainCheck_tc] at hq
    obtain ⟨hq, hne⟩ := List.mem_filter.mp hq
    rw [List.mem_singleton.mp (honly q hq hw)] at hne
    exact absurd rfl (bne_iff_ne.mp hne)
  unfold State.reachWaypoints
  dsimp only
  rw [hone, State.retire_ended hu hr hc, State.reachKind_quiet (hafter .due), State.reachKind_quiet (hafter .routed), State.reachKind_quiet (hafter .pending), State.reachKind_quiet (hafter .due)]

/-- Settles O23: the lone record's request abandoned, and a CARRIED record at its end point. -/
theorem aLoneRecordIsAbandonedOrEnds : Obligations.ALoneRecordIsAbandonedOrEnds := by
  intro s a b r u htick hs hlone hu
  have hur : r ∈ u.tc.records := by rw [hu]; exact hlone.1
  have hus : u.tableLaw := by rw [hu]; exact hs
  have hulone : u.loneAt r u.bpu.position := by rw [hu]; exact hlone
  have hstate : ∀ st, r.state = st → ∀ q ∈ [r], q.state = st := fun st h q hq => by rw [List.mem_singleton.mp hq]; exact h
  have hat : ∃ q ∈ [r], q.waypoint = some u.bpu.position := ⟨r, List.mem_singleton_self r, hulone.2.2.1⟩
  rw [State.exec_plainTick htick, ← hu]
  refine ⟨fun route x hroute hx hend => ?_, fun hcarried => ?_⟩
  · have hout : u.outlet route.outlet = x := by rw [hu, hx]; rfl
    have hone : r.state = .routed ∨ r.state = .due → u.FiresAlone route.outlet r.tag [r] := fun h => hulone.alone hus h hroute (by rw [hu]; exact hend)
    refine ⟨fun hst w hw hnot => ?_, fun hst hin => ?_⟩
    · have hwithout : x.without r.tag route.units = { x.less route.units with latest := if ∃ l, x.latest = some l ∧ l.owner = r.tag then none else x.latest } := by
        unfold Outlet.without
        rw [if_neg hnot]
        rfl
      rw [(hone (.inl hst)).reach_busy (hstate _ hst) hat (by rw [hout, hw]; simp), State.abandoned_lone hus hur hroute, hout, hwithout, hu]
      rfl
    · have hwithout : x.without r.tag route.units
          = { x.less route.units with request := none, latest := if ∃ l, x.latest = some l ∧ l.owner = r.tag then none else x.latest } := by
        unfold Outlet.without
        rw [if_pos hin]
      rw [(hone (.inr hst)).reach_due (hstate _ hst) hat, State.abandoned_lone hus hur hroute, hout, hwithout, hu]
      rfl
  · refine ⟨_, rfl, ?_, ?_⟩
    · rw [State.reach_ended hus hulone hcarried]
      have htaken := State.ended_takenOut hus hur
      subst hu
      exact ⟨htaken.records, htaken.gens, htaken.service, htaken.ilc⟩
    · rw [State.reach_ended hus hulone hcarried, State.drainCheck_rest]
      subst hu
      rfl

end Sys2Proof.Machine
end

section
/-! PROOFS. A tick that reaches several waypoints: the kinds in their order, and each kind in belt order. -/

namespace Sys2Proof.Machine

/-! ### Records that are each their own cluster -/

/-- The live record of a tag, replaced, and the others. -/
theorem State.mem_withRecord {s : State} {t : Tag} {x y : Record} (h : y ∈ (s.withRecord t x).tc.records) : y = x ∨ y ∈ s.tc.records ∧ y.tag ≠ t := by
  obtain ⟨q, hq, rfl⟩ := List.mem_map.mp h
  split
  · exact .inl rfl
  · next hne => exact .inr ⟨hq, hne⟩

theorem State.mem_withRecord_other {s : State} {t : Tag} {x y : Record} (hy : y ∈ s.tc.records) (hne : y.tag ≠ t) : y ∈ (s.withRecord t x).tc.records :=
  List.mem_map.mpr ⟨y, hy, if_neg hne⟩

/-- No live record is tied to another (R35). -/
structure State.AllAlone (s : State) : Prop where
  table : s.tableLaw
  alone : ∀ r ∈ s.tc.records, r.cluster = none

theorem State.AllAlone.leader {s : State} (h : s.AllAlone) {r : Record} (hr : r ∈ s.tc.records) : r.leaderTag = r.tag :=
  Record.leaderTag_of_leads (Record.leads_of_none (h.alone r hr))

theorem State.AllAlone.members {s : State} (h : s.AllAlone) {r : Record} (hr : r ∈ s.tc.records) : s.membersOf r.tag = [r] :=
  State.membersOf_alone h.table hr (h.alone r hr) fun _ hq hne e => hne ((h.leader hq).symm.trans e)

theorem State.AllAlone.withRecord {s : State} (h : s.AllAlone) {t : Tag} {x : Record} (hx : x.tag = t) (hc : x.cluster = none) : (s.withRecord t x).AllAlone where
  table := State.tableLaw_of_tags (by
    refine List.map_map.trans (List.map_congr_left fun q _ => ?_)
    simp only [Function.comp]
    split
    · next he => rw [he, hx]
    · rfl) h.table
  alone r hr := by
    obtain rfl | ⟨hr, -⟩ := State.mem_withRecord hr
    · exact hc
    · exact h.alone r hr

theorem State.AllAlone.of_records {s t : State} (h : s.AllAlone) (ht : t.tc.records = s.tc.records) : t.AllAlone where
  table := by
    unfold State.tableLaw
    rw [ht]
    exact h.table
  alone := by
    rw [ht]
    exact h.alone

theorem State.AllAlone.ended {s : State} (h : s.AllAlone) (r : Record) : (s.ended r).AllAlone where
  table := h.table.sublist (List.filter_sublist.map _)
  alone q hq := h.alone q (List.mem_of_mem_filter hq)

/-- The one record of a kind at the position is taken by that kind's act. -/
theorem State.AllAlone.reachKind {s : State} (h : s.AllAlone) {r : Record} (hr : r ∈ s.tc.records) {p : Pos} (hw : r.waypoint = some p)
    (honly : ∀ q ∈ s.tc.records, q.state = r.state → q.waypoint = some p → q = r) (act : State → Tag → State) : s.reachKind r.state p act = act s r.tag :=
  State.reachKind_one ⟨r, hr, h.leader hr, rfl, hw⟩ (fun q hq hs hw => by rw [honly q hq hs hw, h.leader hr]) act

/-- The records at a position, once their states are known to differ, are told apart by their states. -/
theorem State.AllAlone.booked {s : State} (h : s.AllAlone) {r : Record} (hr : r ∈ s.tc.records) {route : Route} (hroute : r.route = some route) (hst : r.state = .routed ∨ r.state = .due) :
    s.BookedAt route.outlet r.tag [r] := State.booked_lone (h.members hr) hst hroute

/-- A decision leaves no new record DUE. -/
theorem State.decidesTo_noneDue {s t : State} {ms : List Record} {lead : Record} {p : Pos} (h : s.decidesTo ms lead t) (hnone : s.NoneAt .due p) : t.NoneAt .due p := by
  obtain ⟨f, hf, htc⟩ := State.walksTo_records h
  intro r hr hdue hw
  rw [htc] at hr
  obtain ⟨x, hx, rfl⟩ := List.mem_map.mp hr
  split at hdue
  · obtain h | h := (hf x).state <;> rw [h] at hdue <;> cases hdue
  · next hout =>
    rw [if_neg hout] at hw
    exact hnone x hx hdue hw

/-! ### One kind after another -/

/-- A DUE record has its place in the request that waits at its outlet (R118). -/
theorem State.booksLaw.due_requestMembers {s : State} (hs : s.booksLaw) {r : Record} (hr : r ∈ s.tc.records) {o : OutletNo} (h : r.isAt .due o) : r.tag ∈ (s.outlet o).requestMembers := by
  have hdue := hs.due o
  unfold Outlet.requestMembers
  cases hreq : (s.outlet o).request with
  | none =>
    rw [hreq] at hdue
    exact absurd h (hdue r hr)
  | some w =>
    rw [hreq] at hdue
    cases w with
    | deadline ms late units => exact (hdue.2.1 r.tag).mpr ⟨r, hr, rfl, h⟩
    | test => exact absurd h (hdue r hr)

/-- A record of each kind at the position, each its own cluster: the DUE and the ROUTED one at one outlet, where the paddle is not IDLE. -/
structure State.FourKinds (u : State) (e d f q : Record) (rd rf : Route) (late : Pos) : Prop where
  all : u.AllAlone
  at_iff : ∀ r ∈ u.tc.records, r.waypoint = some u.bpu.position ↔ r ∈ [e, d, f, q]
  live : ∀ r ∈ [e, d, f, q], r ∈ u.tc.records
  carried : e.state = .carried
  due : d.state = .due
  routed : f.state = .routed
  pending : q.state = .pending
  dueRoute : d.route = some rd
  routedRoute : f.route = some rf
  free : q.route = none
  outlet : rf.outlet = rd.outlet
  fire : rf.firePoint = u.bpu.position
  waits : d.tag ∈ (u.outlet rd.outlet).requestMembers
  behind : (u.outlet rd.outlet).paddle ≠ .idle
  tolerance : 0 < (u.outlet rd.outlet).fields.lateTolerance ∧ (u.outlet rd.outlet).fields.lateTolerance ≤ 255
  limit : late = plus rf.firePoint (u.outlet rd.outlet).fields.lateTolerance
  ahead : u.endsAhead u.bpu.position [d, f, q]

section
variable {u : State} {e d f q : Record} {rd rf : Route} {late : Pos}

theorem State.FourKinds.tag_ne (h : u.FourKinds e d f q rd rf late) {x y : Record} (hx : x ∈ u.tc.records) (hy : y ∈ u.tc.records) (hne : x.state ≠ y.state) : x.tag ≠ y.tag :=
  fun ht => hne (congrArg Record.state (State.eq_of_tag h.all.table hy hx ht))

/-- The tick takes the end point, the late limit, the fire point and the decision point in this order (R30). -/
theorem State.FourKinds.reach (h : u.FourKinds e d f q rd rf late) :
    (((u.ended e).abandoned rd.outlet d.tag [d] .fireLate).asked rf.outlet [f] late).decidesTo [q] q u.reachWaypoints := by
  obtain ⟨he, hd, hf, hq⟩ : e ∈ u.tc.records ∧ d ∈ u.tc.records ∧ f ∈ u.tc.records ∧ q ∈ u.tc.records := by simpa using h.live
  obtain ⟨hew, hdw, hfw, hqw⟩ : e.waypoint = some u.bpu.position ∧ d.waypoint = some u.bpu.position ∧ f.waypoint = some u.bpu.position ∧ q.waypoint = some u.bpu.position :=
    ⟨(h.at_iff e he).mpr (by simp), (h.at_iff d hd).mpr (by simp), (h.at_iff f hf).mpr (by simp), (h.at_iff q hq).mpr (by simp)⟩
  have hde : d.tag ≠ e.tag := h.tag_ne hd he (by rw [h.due, h.carried]; decide)
  have hfe : f.tag ≠ e.tag := h.tag_ne hf he (by rw [h.routed, h.carried]; decide)
  have hqe : q.tag ≠ e.tag := h.tag_ne hq he (by rw [h.pending, h.carried]; decide)
  have hfd : f.tag ≠ d.tag := h.tag_ne hf hd (by rw [h.routed, h.due]; decide)
  have hqd : q.tag ≠ d.tag := h.tag_ne hq hd (by rw [h.pending, h.due]; decide)
  have hqf : q.tag ≠ f.tag := h.tag_ne hq hf (by rw [h.pending, h.routed]; decide)
  -- the CARRIED record is retired; DRAINING does not end, since the DUE one is live
  obtain ⟨u₀, hu₀⟩ : ∃ u₀, u₀ = u.ended e := ⟨_, rfl⟩
  have hin₀ : ∀ {r}, r ∈ u₀.tc.records ↔ r ∈ u.tc.records ∧ r.tag ≠ e.tag := fun {r} => by
    rw [hu₀]
    exact List.mem_filter.trans (and_congr_right fun _ => bne_iff_ne)
  have hall₀ : u₀.AllAlone := hu₀ ▸ h.all.ended e
  have hat₀ : ∀ r ∈ u₀.tc.records, r.waypoint = some u.bpu.position → r ∈ [d, f, q] := fun r hr hw => by
    obtain ⟨hr, hne⟩ := hin₀.mp hr
    obtain rfl | hr := List.mem_cons.mp ((h.at_iff r hr).mp hw)
    · exact absurd rfl hne
    · exact hr
  have hstep₀ : u.reachKind .carried u.bpu.position (fun s t => s.retire .ended t) = u₀ := by
    have hone := h.all.reachKind he hew (fun r hr hs hw => by
      obtain rfl | rfl | rfl | rfl : r = e ∨ r = d ∨ r = f ∨ r = q := by simpa using (h.at_iff r hr).mp hw
      · rfl
      all_goals simp [h.carried, h.due, h.routed, h.pending] at hs) (fun s t => s.retire .ended t)
    rw [h.carried] at hone
    rw [hone, State.retire_ended h.all.table he (h.all.alone e he), ← hu₀]
    exact if_neg fun hd' => List.ne_nil_of_mem (hin₀.mpr ⟨hd, hde⟩) hd'.2
  -- the DUE record is abandoned
  have hd₀ := hin₀.mpr ⟨hd, hde⟩
  obtain ⟨u₁, hu₁⟩ : ∃ u₁, u₁ = u₀.abandoned rd.outlet d.tag [d] .fireLate := ⟨_, rfl⟩
  have hrec₁ : u₁.tc.records = (u₀.withRecord d.tag (u₀.ride .fireLate d)).tc.records := by
    rw [hu₁, State.abandoned_lone hall₀.table hd₀ h.dueRoute]
    rfl
  have hall₁ : u₁.AllAlone := (hall₀.withRecord (x := u₀.ride .fireLate d) rfl rfl).of_records hrec₁
  have hin₁ : ∀ {r}, r ∈ u.tc.records → r.tag ≠ e.tag → r.tag ≠ d.tag → r ∈ u₁.tc.records := fun {r} hr he hd => by
    rw [hrec₁]
    exact State.mem_withRecord_other (hin₀.mpr ⟨hr, he⟩) hd
  have hat₁ : ∀ r ∈ u₁.tc.records, r.state = .carried ∨ (r.waypoint = some u.bpu.position → r ∈ [f, q]) := fun r hr => by
    rw [hrec₁] at hr
    obtain rfl | ⟨hr, hne⟩ := State.mem_withRecord hr
    · exact .inl rfl
    · refine .inr fun hw => ?_
      obtain rfl | hr := List.mem_cons.mp (hat₀ r hr hw)
      · exact absurd rfl hne
      · exact hr
  have hstep₁ : u₀.reachKind .due u.bpu.position State.abandonLate = u₁ := by
    have hone := hall₀.reachKind hd₀ hdw (fun r hr hs hw => by
      obtain rfl | rfl | rfl : r = d ∨ r = f ∨ r = q := by simpa using hat₀ r hr hw
      · rfl
      all_goals simp [h.due, h.routed, h.pending] at hs) State.abandonLate
    rw [h.due] at hone
    rw [hone, hu₁]
    refine State.abandonLate_eq hall₀.table (hall₀.booked hd₀ h.dueRoute (.inr h.due)) fun r hr => ?_
    rw [hu₀]
    exact h.ahead r (by simp at hr; simp [hr])
  -- the ROUTED one finds no request waiting
  have hf₁ := hin₁ hf hfe hfd
  have hout₁ : u₁.outlet rf.outlet = (u.outlet rd.outlet).without d.tag (routeUnits [d]) := by
    rw [hu₁, hu₀, h.outlet]
    exact State.outlet_setOutlet_self ..
  have hfree₁ : (u₁.outlet rf.outlet).request = none := by
    rw [hout₁]
    exact if_pos h.waits
  obtain ⟨u₂, hu₂⟩ : ∃ u₂, u₂ = u₁.asked rf.outlet [f] late := ⟨_, rfl⟩
  have hrec₂ : u₂.tc.records = (u₁.withRecord f.tag { f with state := .due, waypoint := some late }).tc.records := by
    rw [hu₂, State.asked_lone hall₁.table hf₁ h.routedRoute]
    rfl
  have hall₂ : u₂.AllAlone := (hall₁.withRecord (x := { f with state := .due, waypoint := some late }) rfl (h.all.alone f hf)).of_records hrec₂
  have hstep₂ : u₁.reachKind .routed u.bpu.position State.fireCluster = u₂ := by
    have hone := hall₁.reachKind hf₁ hfw (fun r hr hs hw => by
      rw [h.routed] at hs
      obtain hc | hin := hat₁ r hr
      · rw [hc] at hs
        cases hs
      · obtain rfl | rfl : r = f ∨ r = q := by simpa using hin hw
        · rfl
        · rw [h.pending] at hs
          cases hs) State.fireCluster
    rw [h.routed] at hone
    rw [hone, State.fireCluster_asks hall₁.table (hall₁.booked hf₁ h.routedRoute (.inl h.routed)) (fire := rf.firePoint) (late := late) (fun r hr route hroute => by
        rw [List.mem_singleton.mp hr, h.routedRoute] at hroute
        cases hroute
        rfl) hfree₁ (by rw [hout₁]; exact h.limit), if_neg (fun hi => by rw [hout₁] at hi; exact h.behind hi.1), hu₂]
  -- the PENDING one is decided last
  have hq₂ : q ∈ u₂.tc.records := by
    rw [hrec₂]
    exact State.mem_withRecord_other (hin₁ hq hqe hqd) hqf
  have hat₂ : ∀ r ∈ u₂.tc.records, r.state = .carried ∨ (r.waypoint = some u.bpu.position → r = q) := fun r hr => by
    rw [hrec₂] at hr
    obtain rfl | ⟨hr, hne⟩ := State.mem_withRecord hr
    · refine .inr fun hw => absurd (Option.some.inj hw) ?_
      rw [h.limit, h.fire]
      exact plus_ne h.tolerance.1 h.tolerance.2
    · refine (hat₁ r hr).imp_right fun hin hw => ?_
      obtain rfl | rfl : r = f ∨ r = q := by simpa using hin hw
      · exact absurd rfl hne
      · rfl
  have hstep₃ : u₂.reachKind .pending u.bpu.position State.decisionWalk = u₂.decisionWalk q.tag := by
    have hone := hall₂.reachKind hq₂ hqw (fun r hr hs hw => by
      obtain hc | hin := hat₂ r hr
      · rw [hc, h.pending] at hs
        cases hs
      · exact hin hw) State.decisionWalk
    rw [h.pending] at hone
    exact hone
  have hdecides : u₂.decidesTo [q] q (u₂.decisionWalk q.tag) := by
    have hgoes := State.decisionWalk_decidesTo hall₂.table hq₂
    rw [hall₂.members hq₂] at hgoes
    refine hgoes (fun r hr => by rw [List.mem_singleton.mp hr]; exact h.free) fun r hr => ?_
    rw [hu₂, hu₁, hu₀]
    exact h.ahead r (by simp at hr; simp [hr])
  have hlast : (u₂.decisionWalk q.tag).NoneAt .due u.bpu.position := State.decidesTo_noneDue hdecides fun r hr hs hw => by
    obtain hc | hin := hat₂ r hr
    · rw [hc] at hs
      cases hs
    · rw [hin hw, h.pending] at hs
      cases hs
  unfold State.reachWaypoints
  dsimp only
  rw [hstep₀, hstep₁, hstep₂, hstep₃, State.reachKind_quiet hlast, ← hu₀, ← hu₁, ← hu₂]
  exact hdecides

end

/-! ### One decision after another -/

/-- A PENDING cluster that waits whole for its decision: its leader at the position, its end points ahead. -/
structure State.Undecided (s : State) (lead : Record) : Prop where
  live : lead ∈ s.tc.records
  leads : lead.leaderTag = lead.tag
  reached : lead.state = .pending ∧ lead.waypoint = some s.bpu.position
  free : ∀ r ∈ s.membersOf lead.tag, r.route = none
  ahead : s.endsAhead s.bpu.position (s.membersOf lead.tag)

theorem State.Undecided.decides {s : State} (hs : s.tableLaw) {lead : Record} (h : s.Undecided lead) :
    s.decidesTo (s.membersOf lead.tag) lead (s.decisionWalk lead.tag) := State.decisionWalk_decidesTo hs h.live h.free h.ahead

theorem State.Undecided.stillAt {s : State} {lead : Record} (h : s.Undecided lead) : s.stillAt .pending s.bpu.position lead.tag = true :=
  State.stillAt_iff.mpr ⟨lead, h.live, h.leads, h.reached.1, h.reached.2⟩

/-- The decision of one cluster leaves another waiting as before. -/
theorem State.Undecided.after {s : State} (hs : s.tableLaw) {lead other : Record} (h : s.Undecided lead) (h' : s.Undecided other) (hne : other.tag ≠ lead.tag) :
    (s.decisionWalk lead.tag).Undecided other := by
  obtain ⟨f, hf, htc⟩ := State.walksTo_records (h.decides hs)
  have hwork := Work.walk s .decision lead.tag
  have hmembers : (s.decisionWalk lead.tag).membersOf other.tag = s.membersOf other.tag := by
    unfold State.membersOf
    rw [htc]
    exact State.membersOf_withEach_other hs hne ⟨other, h'.live, rfl, h'.leads⟩ fun q => (hf q).leader
  refine ⟨?_, h'.leads, ?_, ?_, ?_⟩
  · rw [htc]
    exact List.mem_map.mpr ⟨other, h'.live, if_neg fun hm => hne (h'.leads.symm.trans ((State.mem_membersOf_tags hs h'.live).mp hm))⟩
  · exact ⟨h'.reached.1, h'.reached.2.trans (congrArg (fun x => some (Bpu.position x)) hwork.bpu.symm)⟩
  · rw [hmembers]
    exact h'.free
  · intro q hq
    rw [hmembers] at hq
    unfold State.endPoint
    rw [show (s.decisionWalk lead.tag).bpu = s.bpu from hwork.bpu, show (s.decisionWalk lead.tag).params = s.params from hwork.params]
    exact h'.ahead q hq

/-- PENDING clusters that wait whole are all decided, in their order (R30), and no record becomes DUE by it. -/
theorem State.decidesEach {p : Pos} : ∀ {leads : List Record} {s : State}, s.bpu.position = p → s.tableLaw → (leads.map Record.tag).Nodup → (∀ lead ∈ leads, s.Undecided lead) →
    s.NoneAt .due p → ∃ t, t = (leads.map Record.tag).foldl (fun s t => if s.stillAt .pending p t then s.decisionWalk t else s) s ∧ DecidesEach s leads t ∧ t.NoneAt .due p
  | [], s, _, _, _, _, hd => ⟨s, rfl, .none, hd⟩
  | lead :: rest, s, hp, hs, hn, h, hd => by
    obtain ⟨hnot, hrest⟩ := List.nodup_cons.mp hn
    have hlead := h lead List.mem_cons_self
    have hdecides := hlead.decides hs
    have hs' : (s.decisionWalk lead.tag).tableLaw := by
      obtain ⟨f, hf, htc⟩ := State.walksTo_records hdecides
      unfold State.tableLaw
      rw [htc]
      exact State.withEach_tableLaw hs fun q => (hf q).tag
    obtain ⟨t, ht, heach, hnone⟩ := State.decidesEach (leads := rest) (s := s.decisionWalk lead.tag) ((congrArg Bpu.position (Work.walk s .decision lead.tag).bpu).trans hp) hs' hrest
      (fun other ho => hlead.after hs (h other (List.mem_cons_of_mem _ ho)) fun e => hnot (e ▸ List.mem_map_of_mem ho)) (State.decidesTo_noneDue hdecides hd)
    refine ⟨t, ?_, .next hdecides heach, hnone⟩
    rw [ht, List.map_cons, List.foldl_cons, ← hp, if_pos hlead.stillAt]

theorem eraseDups_of_nodup : ∀ {l : List Tag}, l.Nodup → l.eraseDups = l
  | [], _ => rfl
  | t :: rest, h => by
    obtain ⟨hnot, hrest⟩ := List.nodup_cons.mp h
    rw [List.eraseDups_cons, List.filter_eq_self.mpr fun x hx => by simpa using fun e : x = t => hnot (e ▸ hx), eraseDups_of_nodup hrest]

/-- The tick that reaches only decision points, each of a cluster's leader (R29, R30). -/
theorem State.reach_decisions {u : State} (hu : u.tableLaw) {leads : List Record} (hleads : leads = u.tc.records.filter (fun r => r.waypoint == some u.bpu.position))
    (h : ∀ lead ∈ leads, u.Undecided lead) : DecidesEach u leads u.reachWaypoints := by
  have hmem : ∀ r ∈ u.tc.records, r.waypoint = some u.bpu.position → r ∈ leads := fun r hr hw => by
    rw [hleads]
    exact List.mem_filter.mpr ⟨hr, beq_iff_eq.mpr hw⟩
  have hquiet : ∀ st, st ≠ .pending → u.NoneAt st u.bpu.position := fun st hne r hr hs hw => hne (hs.symm.trans (h r (hmem r hr hw)).reached.1)
  have hnodup : (leads.map Record.tag).Nodup := by
    rw [hleads]
    exact (State.tags_nodup hu).sublist (List.filter_sublist.map _)
  have hreached : u.reachedIn .pending u.bpu.position = leads.map Record.tag := by
    have hpick : u.tc.records.filter (fun r => r.state == .pending && r.waypoint == some u.bpu.position) = leads := by
      rw [hleads]
      refine List.filter_congr fun r hr => ?_
      by_cases hw : r.waypoint = some u.bpu.position
      · rw [(h r (hmem r hr hw)).reached.1]
        rfl
      · rw [beq_false_of_ne hw, Bool.and_false]
    rw [State.reachedIn, hpick, List.map_congr_left fun r hr => (h r hr).leads, eraseDups_of_nodup hnodup]
  obtain ⟨t, ht, heach, hnone⟩ := State.decidesEach rfl hu hnodup h (hquiet .due (by decide))
  have hstep : u.reachKind .pending u.bpu.position State.decisionWalk = t := by rw [State.reachKind, hreached, ht]
  unfold State.reachWaypoints
  dsimp only
  rw [State.reachKind_quiet (hquiet .carried (by decide)), State.reachKind_quiet (hquiet .due (by decide)), State.reachKind_quiet (hquiet .routed (by decide)), hstep,
    State.reachKind_quiet hnone]
  exact heach

/-! ### Two requests at one outlet -/

/-- A record that ties itself to none is its whole cluster (R35). -/
theorem State.booksLaw.members_alone {s : State} (hs : s.booksLaw) {r : Record} (hr : r ∈ s.tc.records) (hc : r.cluster = none) : s.membersOf r.tag = [r] :=
  State.membersOf_alone hs.slots hr hc fun q hq hne e => by
    cases hq' : q.cluster with
    | none => exact hne ((Record.leaderTag_of_leads (Record.leads_of_none hq')).symm.trans e)
    | some link =>
      cases link with
      | leader n => exact hne (by simpa [Record.leaderTag, hq'] using e)
      | member t =>
        obtain ⟨l, hl, hlt, ⟨n, hln⟩, -⟩ := hs.members q hq t hq'
        have hlr : l = r := State.eq_of_tag hs.slots hr hl (hlt.trans (by simpa [Record.leaderTag, hq'] using e))
        rw [hlr, hc] at hln
        cases hln

/-- Two lone ROUTED records, the older first, at their fire points at one outlet where no request waits and the paddle is not IDLE. -/
structure State.TwoFire (u : State) (f g : Record) (rf rg : Route) (late : Pos) : Prop where
  table : u.tableLaw
  reached : u.tc.records.filter (fun r => r.waypoint == some u.bpu.position) = [f, g]
  states : ∀ r ∈ [f, g], r.state = .routed ∧ r.leaderTag = r.tag ∧ u.membersOf r.tag = [r]
  first : f.route = some rf
  second : g.route = some rg
  outlet : rg.outlet = rf.outlet
  fire : rf.firePoint = u.bpu.position
  free : (u.outlet rf.outlet).request = none
  behind : (u.outlet rf.outlet).paddle ≠ .idle
  tolerance : 0 < (u.outlet rf.outlet).fields.lateTolerance ∧ (u.outlet rf.outlet).fields.lateTolerance ≤ 255
  limit : late = plus rf.firePoint (u.outlet rf.outlet).fields.lateTolerance
  ahead : u.endsAhead u.bpu.position [f, g]

/-- The older record waits, and the younger finds its request waiting (R30, R118, R119). -/
theorem State.TwoFire.reach {u : State} {f g : Record} {rf rg : Route} {late : Pos} (h : u.TwoFire f g rf rg late) :
    u.reachWaypoints = (u.asked rf.outlet [f] late).abandoned rg.outlet g.tag [g] .paddleBusy := by
  have hmem : ∀ r ∈ [f, g], r ∈ u.tc.records ∧ r.waypoint = some u.bpu.position := fun r hr => by
    rw [← h.reached] at hr
    exact (List.mem_filter.mp hr).imp_right beq_iff_eq.mp
  have honly : ∀ r ∈ u.tc.records, r.waypoint = some u.bpu.position → r ∈ [f, g] := fun r hr hw => by
    rw [← h.reached]
    exact List.mem_filter.mpr ⟨hr, beq_iff_eq.mpr hw⟩
  have hquiet : ∀ st, st ≠ .routed → u.NoneAt st u.bpu.position := fun st hne r hr hs hw => hne (hs.symm.trans (h.states r (honly r hr hw)).1)
  obtain ⟨hf, hfw⟩ := hmem f (by simp)
  obtain ⟨hg, hgw⟩ := hmem g (by simp)
  obtain ⟨hfst, hfl, hfm⟩ := h.states f (by simp)
  obtain ⟨hgst, hgl, hgm⟩ := h.states g (by simp)
  have hne : g.tag ≠ f.tag := by
    have hnodup : ([f, g].map Record.tag).Nodup := by
      rw [← h.reached]
      exact (State.tags_nodup h.table).sublist (List.filter_sublist.map _)
    intro e
    simp [e] at hnodup
  have hreached : u.reachedIn .routed u.bpu.position = [f.tag, g.tag] := by
    have hpick : u.tc.records.filter (fun r => r.state == .routed && r.waypoint == some u.bpu.position) = [f, g] := by
      rw [← h.reached]
      refine List.filter_congr fun r hr => ?_
      by_cases hw : r.waypoint = some u.bpu.position
      · rw [(h.states r (honly r hr hw)).1]
        rfl
      · rw [beq_false_of_ne hw, Bool.and_false]
    rw [State.reachedIn, hpick, List.map_cons, List.map_cons, List.map_nil, hfl, hgl]
    exact eraseDups_of_nodup (by simpa using hne.symm)
  -- the older asks
  obtain ⟨v, hv⟩ : ∃ v, v = u.asked rf.outlet [f] late := ⟨_, rfl⟩
  have hasks : u.fireCluster f.tag = v := by
    rw [State.fireCluster_asks h.table (State.booked_lone hfm (.inl hfst) h.first) (fire := rf.firePoint) (fun r hr route hroute => by
      rw [List.mem_singleton.mp hr, h.first] at hroute
      cases hroute
      rfl) h.free h.limit, if_neg fun hi => h.behind hi.1, hv]
  have hrec : v.tc.records = (u.withRecord f.tag { f with state := .due, waypoint := some late }).tc.records := by
    rw [hv, State.asked_lone h.table hf h.first]
    rfl
  -- the younger is abandoned
  have hgv : g ∈ v.tc.records := by
    rw [hrec]
    exact State.mem_withRecord_other hg hne
  have htable : v.tableLaw := by
    rw [hv]
    exact (u.asked_askedWith rf.outlet [f] late).table h.table
  have hgmv : v.membersOf g.tag = [g] := by
    have hmap := State.membersOf_of_map (s := u) (v := v) (f := Record.asking [f] late) (by rw [hv]; rfl) (fun q => by unfold Record.asking; split <;> rfl) g.tag
    rw [hmap, hgm, List.map_singleton, Record.asking, if_neg (by simpa using hne)]
  have hbusy : v.fireCluster g.tag = v.abandoned rg.outlet g.tag [g] .paddleBusy := by
    refine State.fireCluster_busy htable (State.booked_lone hgmv (.inl hgst) h.second) (fun r hr => ?_) ?_
    · rw [hv]
      exact h.ahead r (by simp at hr; simp [hr])
    · rw [hv, h.outlet, State.outlet_asked, if_pos rfl]
      exact Option.some_ne_none _
  have hstill : ∀ w : State, g ∈ w.tc.records → w.stillAt .routed u.bpu.position g.tag = true := fun w hw => State.stillAt_iff.mpr ⟨g, hw, hgl, hgst, hgw⟩
  have hstep : u.reachKind .routed u.bpu.position State.fireCluster = v.abandoned rg.outlet g.tag [g] .paddleBusy := by
    rw [State.reachKind, hreached, List.foldl_cons, List.foldl_cons, List.foldl_nil, if_pos (State.stillAt_iff.mpr ⟨f, hf, hfl, hfst, hfw⟩), hasks, if_pos (hstill v hgv), hbusy]
  have hafter : ∀ st, st ≠ .carried → (v.abandoned rg.outlet g.tag [g] .paddleBusy).NoneAt st u.bpu.position := fun st hne => by
    refine State.abandoned_noneAt (fun r hr hw => ?_) hne
    rw [hrec] at hr
    obtain rfl | ⟨hr, hrf⟩ := State.mem_withRecord hr
    · refine absurd (Option.some.inj hw) ?_
      rw [h.limit, h.fire]
      exact plus_ne h.tolerance.1 h.tolerance.2
    · obtain rfl | rfl : r = f ∨ r = g := by simpa using honly r hr hw
      · exact absurd rfl hrf
      · simp
  unfold State.reachWaypoints
  dsimp only
  rw [State.reachKind_quiet (hquiet .carried (by decide)), State.reachKind_quiet (hquiet .due (by decide)), hstep, State.reachKind_quiet (hafter .pending (by decide)),
    State.reachKind_quiet (hafter .due (by decide)), ← hv]

/-! ### The tick -/

/-- Settles O26: the kinds one after another, and each kind in belt order. -/
theorem oneTickTakesWaypointsByKind : Obligations.OneTickTakesWaypointsByKind := by
  refine ⟨?_, ?_, ?_⟩
  · intro s u₀ u₁ u₂ a b e d f q o x rd rf late htick hs hat hlive hall he hd hf hq hrd hrf hdo hfo hfire hx hahead hbehind hpos hle hlate hu₀ hu₁ hu₂
    subst hdo hx
    have hkinds : (s.moved a b).FourKinds e d f q rd rf late := {
      all := ⟨hs.slots, hall⟩
      at_iff := hat
      live := fun r hr => (hlive r hr).1
      carried := he
      due := hd
      routed := hf
      pending := hq
      dueRoute := hrd
      routedRoute := hrf
      free := by
        by_contra hne
        have := (hs.routes q (hlive q (by simp)).1).mp hne
        simp [hq] at this
      outlet := hfo
      fire := hfire
      waits := hs.due_requestMembers (hlive d (by simp)).1 ⟨hd, by rw [hrd]; rfl⟩
      behind := hbehind
      tolerance := ⟨hpos, hle⟩
      limit := hlate
      ahead := hahead }
    refine ⟨_, State.exec_plainTick htick, ?_⟩
    have hreach := hkinds.reach
    have hdr : d ∈ ((s.moved a b).ended e).tc.records := List.mem_filter.mpr ⟨(hlive d (by simp)).1, bne_iff_ne.mpr
      (hkinds.tag_ne (hlive d (by simp)).1 (hlive e (by simp)).1 (by rw [hd, he]; decide))⟩
    have hfr : f ∈ (((s.moved a b).ended e).abandoned rd.outlet d.tag [d] .fireLate).tc.records := by
      refine List.mem_map.mpr ⟨f, List.mem_filter.mpr ⟨(hlive f (by simp)).1, bne_iff_ne.mpr (hkinds.tag_ne (hlive f (by simp)).1 (hlive e (by simp)).1 (by rw [hf, he]; decide))⟩, if_neg ?_⟩
      simpa using hkinds.tag_ne (hlive f (by simp)).1 (hlive d (by simp)).1 (by rw [hf, hd]; decide)
    have htable₀ : ((s.moved a b).ended e).tableLaw := (hkinds.all.ended e).table
    have htable₁ : (((s.moved a b).ended e).abandoned rd.outlet d.tag [d] .fireLate).tableLaw := State.withEach_tableLaw htable₀ (State.ride_tag _ _)
    rw [State.asked_lone htable₁ hfr hrf, State.abandoned_lone htable₀ hdr hrd] at hreach
    rw [hu₂, hu₁, hu₀, ← hfo]
    rw [← hfo] at hreach
    exact hreach
  · intro s a b leads htick hs hleads h
    refine ⟨_, State.exec_plainTick htick, State.reach_decisions (u := s.moved a b) hs.slots hleads fun lead hl => ?_⟩
    obtain ⟨hst, hself, hahead⟩ := h lead hl
    rw [hleads] at hl
    obtain ⟨hlr, hw⟩ := List.mem_filter.mp hl
    refine ⟨hlr, Record.leaderTag_of_leads hself, ⟨hst, beq_iff_eq.mp hw⟩, fun r hr => ?_, hahead⟩
    have hfree := hs.free hlr hst
    rw [Record.leaderTag_of_leads hself] at hfree
    exact hfree r hr
  · intro s u a b f g o x rf rg late htick hs hreached hstates hf hg hfo hgo hfire hx hahead hfree hbehind hpos hle hlate hu
    subst hfo hx
    have htwo : (s.moved a b).TwoFire f g rf rg late := {
      table := hs.slots
      reached := hreached
      states := fun r hr => by
        have hr' : r ∈ s.tc.records := by
          rw [← hreached] at hr
          exact List.mem_of_mem_filter hr
        obtain ⟨hst, hc⟩ := hstates r hr
        exact ⟨hst, Record.leaderTag_of_leads (Record.leads_of_none hc), hs.members_alone hr' hc⟩
      first := hf
      second := hg
      outlet := hgo
      fire := hfire
      free := hfree
      behind := hbehind
      tolerance := ⟨hpos, hle⟩
      limit := hlate
      ahead := hahead }
    have hin : ∀ r ∈ [f, g], r ∈ (s.moved a b).tc.records := fun r hr => by
      rw [← hreached] at hr
      exact List.mem_of_mem_filter hr
    have hne : g.tag ≠ f.tag := by
      have hnodup : ([f, g].map Record.tag).Nodup := by
        rw [← hreached]
        exact (State.tags_nodup hs.slots).sublist (List.filter_sublist.map _)
      intro e
      simp [e] at hnodup
    have hgr : g ∈ ((s.moved a b).asked rf.outlet [f] late).tc.records := List.mem_map.mpr ⟨g, hin g (by simp), if_neg (by simpa using hne)⟩
    have htable : ((s.moved a b).asked rf.outlet [f] late).tableLaw := ((s.moved a b).asked_askedWith rf.outlet [f] late).table hs.slots
    have hask : (s.moved a b).asked rf.outlet [f] late = u := by
      rw [State.asked_lone (u := s.moved a b) hs.slots (hin f (by simp)) hf, hu]
      rfl
    have hempty : (u.outlet rf.outlet).emptiedBy rg.units = (s.outlet rf.outlet).emptiedBy rg.units := by
      rw [← hask, State.outlet_asked, if_pos rfl]
      rfl
    rw [State.exec_plainTick htick, htwo.reach, State.abandoned_lone htable hgr hg, hask, hgo, hempty, hu]
    rfl

end Sys2Proof.Machine
end

section
/-! PROOFS. A missed stroke set: its records carried, the miss counted, and the fault at the miss limit. -/

namespace Sys2Proof.Machine

/-! ### Records carried by a list of tags -/

/-- A carried record carried once more for the same reason is as it was. -/
theorem State.carryRecord_again {u : State} (hu : u.tableLaw) {q : Record} {why : CarryReason} (hq : u.ride why q ∈ u.tc.records) (hahead : atOrBeyond u.bpu.position (u.endPoint q) = false) :
    u.carryRecord why q.tag = u := by
  have hfound := State.carryRecord_found hu hq why
  rw [show u.endPoint (u.ride why q) = u.endPoint q from rfl, hahead, if_neg Bool.false_ne_true, State.giveBack_none (by rfl), State.withEach_single hu hq] at hfound
  refine hfound.trans ?_
  have hsame : u.tc.records.map (fun x => if x.tag = q.tag then u.ride why (u.ride why q) else x) = u.tc.records := by
    refine (List.map_congr_left fun x hx => ?_).trans (List.map_id _)
    split
    · next he => exact (State.eq_of_tag hu hq hx he).symm
    · rfl
  exact congrArg u.setRecords hsame

/-- Whatever list of tags is carried, with repetitions or tags that name nothing, it is the live records of these tags, each once. -/
theorem State.carryAll_picked {s : State} (hs : s.tableLaw) (why : CarryReason) (ts : List Tag) :
    ∃ ms : List Record, (∀ r, r ∈ ms ↔ r ∈ s.tc.records ∧ r.tag ∈ ts) ∧ (ms.map Record.tag).Nodup ∧ s.carryAll why ts = s.carryAll why (ms.map Record.tag) := by
  induction ts using List.reverseRecOn with
  | nil => exact ⟨[], fun r => by simp, List.nodup_nil, rfl⟩
  | append_singleton ts t ih =>
    obtain ⟨ms, hms, hn, hsame⟩ := ih
    have happend : ∀ ts' : List Tag, s.carryAll why (ts' ++ [t]) = (s.carryAll why ts').carryRecord why t := fun ts' => List.foldl_append ..
    by_cases hnew : t ∉ ts ∧ ∃ r ∈ s.tc.records, r.tag = t
    · obtain ⟨hnot, r, hr, rfl⟩ := hnew
      refine ⟨ms ++ [r], fun q => ?_, ?_, ?_⟩
      · simp only [List.mem_append, List.mem_singleton, hms]
        constructor
        · rintro (⟨hq, ht⟩ | rfl)
          · exact ⟨hq, .inl ht⟩
          · exact ⟨hr, .inr rfl⟩
        · rintro ⟨hq, ht | ht⟩
          · exact .inl ⟨hq, ht⟩
          · exact .inr (State.eq_of_tag hs hr hq ht)
      · rw [List.map_append, List.map_singleton]
        refine List.Nodup.append hn (List.nodup_singleton _) (List.disjoint_singleton.mpr fun h => ?_)
        obtain ⟨q, hq, ht⟩ := List.mem_map.mp h
        exact hnot (ht ▸ ((hms q).mp hq).2)
      · rw [List.map_append, List.map_singleton, happend, happend, hsame]
    · refine ⟨ms, fun r => (hms r).trans (and_congr_right fun hr => ?_), hn, ?_⟩
      · rw [List.mem_append, List.mem_singleton]
        refine ⟨.inl, fun h => h.elim id fun e => ?_⟩
        by_contra hnot
        exact hnew ⟨e ▸ hnot, r, hr, e⟩
      rw [happend, hsame]
      -- what stands under the tag is a carried record whose end point is ahead, or nothing
      have hmem : ∀ r ∈ ms, r ∈ s.tc.records := fun r hr => ((hms r).mp hr).1
      obtain ⟨u, hu⟩ : ∃ u, u = (ms.foldl State.giveBack s).withEach ms (s.ride why) := ⟨_, rfl⟩
      have hclosed := State.carryAll_eq hs hmem hn why
      rw [← hu] at hclosed
      have htc : (ms.foldl State.giveBack s).tc = s.tc := State.foldl_giveBack_tc ..
      have hurec : u.tc.records = s.tc.records.map (fun q => if q.tag ∈ ms.map Record.tag then s.ride why q else q) := by
        rw [hu, ← htc]
        rfl
      have halone : ∀ r ∈ u.tc.records, r.tag ∈ s.endedOf ms → r.cluster = none := fun r hr ht => by
        rw [hurec] at hr
        obtain ⟨q, hq, rfl⟩ := List.mem_map.mp hr
        obtain ⟨x, hx, hxt⟩ := List.mem_map.mp ht
        have hxm : x.tag ∈ ms.map Record.tag := List.mem_map_of_mem (List.mem_filter.mp hx).1
        by_cases hm : q.tag ∈ ms.map Record.tag
        · rw [if_pos hm]
          rfl
        · rw [if_neg hm] at hxt
          exact absurd (hxt ▸ hxm) hm
      have hrec := State.retireAll_unlinked_records (c := .ended) (s.endedOf ms) halone
      rw [hclosed]
      generalize hv : u.retireAll .ended (s.endedOf ms) = v at hrec
      have hvs : v.tableLaw := by
        unfold State.tableLaw
        rw [hrec]
        refine List.Nodup.sublist (List.filter_sublist.map _) ?_
        rw [hu]
        exact State.withEach_tableLaw (State.foldl_giveBack_tableLaw hs ms) fun _ => rfl
      have hvwork : Work v s := by
        rw [← hv, ← hclosed]
        exact Work.foldl (fun s t => Work.carryRecord s why t) _ _
      by_cases hfind : ∃ r ∈ v.tc.records, r.tag = t
      · obtain ⟨r, hr, rfl⟩ := hfind
        have hr' := hr
        rw [hrec] at hr'
        obtain ⟨hru, hleft⟩ := List.mem_filter.mp hr'
        rw [hurec] at hru
        obtain ⟨q, hq, rfl⟩ := List.mem_map.mp hru
        have hqt : (if q.tag ∈ ms.map Record.tag then s.ride why q else q).tag = q.tag := by split <;> rfl
        rw [hqt] at hnew hleft ⊢
        have hqm : q ∈ ms := (hms q).mpr ⟨hq, by
          by_contra hnot
          exact hnew ⟨hnot, q, hq, rfl⟩⟩
        rw [if_pos (List.mem_map_of_mem hqm)] at hr
        have hend : atOrBeyond s.bpu.position (s.endPoint q) = false := by
          by_contra hne
          have hin : q.tag ∈ s.endedOf ms := List.mem_map_of_mem (List.mem_filter.mpr ⟨hqm, Bool.eq_true_of_not_eq_false hne⟩)
          simp [hin] at hleft
        have hpoint : v.endPoint q = s.endPoint q := by
          unfold State.endPoint
          rw [hvwork.params]
        rw [← State.ride_congr hvwork.params why] at hr
        exact State.carryRecord_again hvs hr (by rw [hpoint, hvwork.bpu]; exact hend)
      · unfold State.carryRecord
        rw [State.find_none_iff.mpr fun r hr e => hfind ⟨r, hr, e⟩]

/-! ### The miss -/

/-- The held set's records carried at once, their units given back at their outlet, and the miss counted: nothing retired yet (R39, R128). -/
def State.missed (s : State) (o : OutletNo) (ts : List Tag) (units : Nat) : State :=
  { s.withOutlet o { (s.outlet o).less units with strokeSet := none, missRun := min 15 ((s.outlet o).missRun + 1) } with
    tc := { s.tc with records := s.tc.records.map (fun r =>
      if ts.contains r.tag then
        { r with state := .carried, carry := some .strokeMiss, route := none, cluster := none, waypoint := some (s.endPoint r) }
      else r) }
    tau := { s.tau with
      latches := s.tau.latches ||| (s.outlet o).emptiedBy units
      outlets := s.tau.outlets.set o.val { vget s.tau.outlets o with misses := min 16777215 ((vget s.tau.outlets o).misses + 1) } } }

/-- The units that the records of these tags hold. -/
def State.unitsOf (s : State) (ts : List Tag) : Nat := ((s.tc.records.filter (fun r => ts.contains r.tag)).map (fun r => (r.route.map (·.units)).getD 0)).sum

/-- A miss up to what follows it: a fault or a grant decision (R128). -/
def State.missTaken (s : State) (o : OutletNo) (ts : List Tag) : State :=
  (((s.modOutlet o Outlet.endSet).carryAll .strokeMiss ts).countOutlet o .misses 1).modOutlet o Outlet.raiseMissRun

theorem State.miss_eq (s : State) (o : OutletNo) (set : StrokeSet) :
    s.miss o set = if (s.missTaken o set.members).params.missLimit ≤ ((s.missTaken o set.members).outlet o).missRun ∧ ((s.missTaken o set.members).outlet o).paddle ≠ .faulted then
      (s.missTaken o set.members).enterFaulted o else (s.missTaken o set.members).grantDecision := rfl

/-- Two lists of the same tags name the same records. -/
theorem contains_congr {ts us : List Tag} (h : ∀ t, t ∈ ts ↔ t ∈ us) (t : Tag) : ts.contains t = us.contains t := by
  rw [Bool.eq_iff_iff, List.contains_iff_mem, List.contains_iff_mem, h]

/-- The records that end at once are those of a list, in any order. -/
theorem State.endsAtOnce_congr {s t : State} {ts us : List Tag} (h : ∀ t, t ∈ ts ↔ t ∈ us) (he : s.endsAtOnce ts t) : s.endsAtOnce us t := by
  have hcontains := contains_congr h
  have hempty : ts ≠ [] ↔ us ≠ [] := by
    rw [ne_eq, ne_eq, List.eq_nil_iff_forall_not_mem, List.eq_nil_iff_forall_not_mem]
    exact not_congr (forall_congr' fun t => not_congr (h t))
  obtain ⟨⟨hrecords, hgens, hservice, hilc⟩, hkeys, hrest⟩ := he
  simp only [State.slotCountIn, State.keyCountIn, hcontains, hempty] at hrecords hgens hservice hilc hkeys
  exact ⟨⟨hrecords, hgens, hservice, hilc⟩, hkeys, hrest⟩

theorem State.endedOf_mem {s : State} {ms ns : List Record} (h : ∀ r, r ∈ ms ↔ r ∈ ns) (t : Tag) : t ∈ s.endedOf ms ↔ t ∈ s.endedOf ns := by
  simp only [State.endedOf, List.mem_map, List.mem_filter, h]

/-- A miss takes the set's records to their ends, or out of the table at once; where no end point is reached, none is out (R39, R41, R128). -/
theorem State.missTaken_ends {s : State} {o : OutletNo} {ts : List Tag} (hs : s.tableLaw) (hb : s.tau.bounded) (hlive : ∃ r ∈ s.tc.records, ts.contains r.tag = true)
    (hroutes : ∀ r ∈ s.tc.records, ts.contains r.tag = true → ∃ e f u, r.route = some { outlet := o, entry := e, firePoint := f, units := u }) :
    (s.missed o ts (s.unitsOf ts)).endsAtOnce (s.endedOf (s.tc.records.filter (fun r => ts.contains r.tag))) (s.missTaken o ts)
      ∧ (s.endsAhead s.bpu.position s.tc.records → s.missTaken o ts = s.missed o ts (s.unitsOf ts)) := by
  obtain ⟨s₁, hs₁⟩ : ∃ s₁, s₁ = s.modOutlet o Outlet.endSet := ⟨_, rfl⟩
  have hs₁s : s₁.tableLaw := by
    rw [hs₁]
    exact hs
  obtain ⟨ms, hms, hn, hsame⟩ := State.carryAll_picked hs₁s .strokeMiss ts
  have hrec : s₁.tc.records = s.tc.records := by
    rw [hs₁]
    rfl
  rw [hrec] at hms
  have hpicked : ∀ r, r ∈ ms ↔ r ∈ s.tc.records.filter (fun r => ts.contains r.tag) := fun r => by
    rw [hms, List.mem_filter, List.contains_iff_mem]
  have hcarry := State.carryAll_eq hs₁s (fun r hr => hrec ▸ ((hms r).mp hr).1) hn .strokeMiss
  -- the units that go back
  have hunits : ms.foldl State.giveBack s₁ = s₁.release o (s.unitsOf ts) := by
    have hperm : ms.Perm (s.tc.records.filter (fun r => ts.contains r.tag)) :=
      (List.perm_ext_iff_of_nodup (List.Nodup.of_map _ hn) ((List.Nodup.of_map _ (State.tags_nodup hs)).filter _)).mpr hpicked
    have hsum : routeUnits ms = s.unitsOf ts := (hperm.map _).sum_eq
    obtain ⟨r, hr, hin⟩ := hlive
    have hne : ms ≠ [] := List.ne_nil_of_mem ((hpicked r).mpr (List.mem_filter.mpr ⟨hr, hin⟩))
    obtain ⟨q, rest, rfl⟩ := List.exists_cons_of_ne_nil hne
    rw [← hsum]
    refine State.foldl_giveBack_at (fun r hr => ?_) s₁
    obtain ⟨e, f, u, hroute⟩ := hroutes r ((hms r).mp hr).1 (List.contains_iff_mem.mpr ((hms r).mp hr).2)
    exact ⟨_, hroute, rfl⟩
  obtain ⟨u, hu⟩ : ∃ u, u = (ms.foldl State.giveBack s₁).withEach ms (s₁.ride .strokeMiss) := ⟨_, rfl⟩
  have htags : ∀ q ∈ s.tc.records, q.tag ∈ ms.map Record.tag ↔ ts.contains q.tag = true := fun q hq => by
    rw [State.mem_tags_iff hs (fun r hr => ((hms r).mp hr).1) hq, hms, List.contains_iff_mem]
    exact ⟨And.right, fun h => ⟨hq, h⟩⟩
  -- before anything is retired
  have hcounted : (u.countOutlet o .misses 1).modOutlet o Outlet.raiseMissRun = s.missed o ts (s.unitsOf ts) := by
    rw [hu, hunits, State.release_eq, hs₁]
    have hrecords : s.tc.records.map (fun q => if q.tag ∈ ms.map Record.tag then s.ride .strokeMiss q else q)
        = s.tc.records.map (fun q => if ts.contains q.tag = true then s.ride .strokeMiss q else q) :=
      List.map_congr_left fun q hq => by simp only [htags q hq]
    have hend : (s.modOutlet o Outlet.endSet).outlet o = (s.outlet o).endSet := State.outlet_modOutlet_self _ _ _
    rw [hend]
    have hout : ((((((s.modOutlet o Outlet.endSet).withOutlet o ((s.outlet o).endSet.less (s.unitsOf ts))).withLatches ((s.outlet o).endSet.emptiedBy (s.unitsOf ts))).withEach ms
        ((s.modOutlet o Outlet.endSet).ride .strokeMiss)).countOutlet o .misses 1).outlet o) = (s.outlet o).endSet.less (s.unitsOf ts) := State.outlet_setOutlet_self _ _ _
    rw [State.modOutlet_eq _ o Outlet.raiseMissRun, hout]
    have hset := (State.setOutlet_setOutlet (s.modOutlet o Outlet.endSet) o ((s.outlet o).endSet.less (s.unitsOf ts)) ((s.outlet o).endSet.less (s.unitsOf ts)).raiseMissRun).trans
      (State.setOutlet_setOutlet s o (s.outlet o).endSet ((s.outlet o).endSet.less (s.unitsOf ts)).raiseMissRun)
    exact congrArg₂ (fun (v : State) (rs : List Record) => { v with
      tc := { s.tc with records := rs }
      tau := { s.tau with
        latches := s.tau.latches ||| (s.outlet o).emptiedBy (s.unitsOf ts)
        outlets := s.tau.outlets.set o.val { vget s.tau.outlets o with misses := min 16777215 ((vget s.tau.outlets o).misses + 1) } } }) hset hrecords
  have hrec₁ : u.tc.records = s.tc.records.map (fun q => if q.tag ∈ ms.map Record.tag then s.ride .strokeMiss q else q) := by
    rw [hu, hunits, State.release_eq, hs₁]
    rfl
  have hended : ∀ t, t ∈ s₁.endedOf ms ↔ t ∈ s.endedOf (s.tc.records.filter (fun r => ts.contains r.tag)) := fun t => by
    rw [State.endedOf_mem hpicked, hs₁]
    rfl
  have hretired : (u.retireAll .ended (s₁.endedOf ms)).Retired u .ended (s₁.endedOf ms) := by
    refine State.retireAll_alone ?_ (hn.sublist (List.filter_sublist.map _)) (fun t ht => ?_) (fun r hr ht => ?_) ?_ .ended
    · rw [hu]
      exact State.withEach_tableLaw (State.foldl_giveBack_tableLaw hs₁s ms) fun _ => rfl
    · obtain ⟨r, hr, rfl⟩ := List.mem_map.mp ht
      obtain ⟨hrm, -⟩ := List.mem_filter.mp hr
      rw [hrec₁]
      exact ⟨_, List.mem_map_of_mem ((hms r).mp hrm).1, by split <;> rfl⟩
    · rw [hrec₁] at hr
      obtain ⟨q, hq, rfl⟩ := List.mem_map.mp hr
      obtain ⟨x, hx, hxt⟩ := List.mem_map.mp ht
      have hxm : x.tag ∈ ms.map Record.tag := List.mem_map_of_mem (List.mem_filter.mp hx).1
      by_cases hm : q.tag ∈ ms.map Record.tag
      · rw [if_pos hm]
        rfl
      · rw [if_neg hm] at hxt
        exact absurd (hxt ▸ hxm) hm
    · rw [hu, hunits, State.release_eq, hs₁]
      exact hb
  rw [State.missTaken, ← hs₁, hsame, hcarry, ← hu, ← hcounted]
  refine ⟨State.endsAtOnce_congr hended ?_, fun hahead => ?_⟩
  swap
  · have hnone : s₁.endedOf ms = [] := State.endedOf_ahead fun q hq => by
      rw [hs₁]
      exact hahead q ((hms q).mp hq).1
    rw [hnone]
    rfl
  obtain ⟨⟨hrecords, hgens, hservice, hilc⟩, hkeys, hrest⟩ := hretired
  generalize u.retireAll .ended (s₁.endedOf ms) = v at hrecords hgens hservice hilc hkeys hrest
  refine ⟨⟨hrecords, hgens, hservice, hilc⟩, hkeys, ?_⟩
  generalize v.tc = tc, v.service = service, v.ilc = ilc, v.tau.keys = keys at hrest
  rw [hrest]
  rfl

/-- What follows a miss that has reached the limit: the paddle FAULTED, its slot given up (R116, R128). -/
def State.faulted (s : State) (o : OutletNo) : State :=
  if (s.outlet o).paddle = .stroke then ({ s.withOutlet o { s.outlet o with paddle := .faulted } with aa := { slotsInUse := s.aa.slotsInUse - 1 } } : State).grantDecision
  else s.withOutlet o { s.outlet o with paddle := .faulted }

theorem State.enterFaulted_eq {s : State} {o : OutletNo} (h : (s.outlet o).paddle ≠ .faulted) : s.enterFaulted o = ((s.faulted o).withLatches 0x02).loseAcceptance o := if_neg h

/-! ### What a miss leaves at its outlet -/

theorem State.missTaken_outlet (s : State) (o : OutletNo) (ts : List Tag) : (s.missTaken o ts).params = s.params ∧ ((s.missTaken o ts).outlet o).paddle = (s.outlet o).paddle
    ∧ ((s.missTaken o ts).outlet o).strokeSet = none ∧ ((s.missTaken o ts).outlet o).missRun = min 15 ((s.outlet o).missRun + 1)
    ∧ (vget (s.missTaken o ts).tau.outlets o).misses = min 16777215 ((vget s.tau.outlets o).misses + 1) := by
  obtain ⟨v, hv⟩ : ∃ v, v = (s.modOutlet o Outlet.endSet).carryAll .strokeMiss ts := ⟨_, rfl⟩
  have hpaper : Paperwork v (s.modOutlet o Outlet.endSet) := by
    rw [hv]
    exact Paperwork.foldl (fun s t => .carryRecord s .strokeMiss t) ts _
  have hwork : Work v (s.modOutlet o Outlet.endSet) := by
    rw [hv]
    exact Work.foldl (fun s t => Work.carryRecord s .strokeMiss t) ts _
  have hend : (s.modOutlet o Outlet.endSet).outlet o = (s.outlet o).endSet := State.outlet_modOutlet_self _ _ _
  obtain ⟨hpaddle, hset, -, hrun, -⟩ := (hpaper.outlet o).same
  rw [hend] at hpaddle hset hrun
  have hout : (s.missTaken o ts).outlet o = (v.outlet o).raiseMissRun := by
    rw [hv]
    exact State.outlet_modOutlet_self ..
  have hmisses : (vget (s.missTaken o ts).tau.outlets o).misses = min 16777215 ((vget v.tau.outlets o).misses + 1) := by
    rw [hv]
    exact congrArg OutletTally.misses (vget_vset_self ..)
  rw [hout, hmisses, hpaper.outletTallies]
  refine ⟨?_, hpaddle, hset, congrArg (fun n => min 15 (n + 1)) hrun, rfl⟩
  rw [show (s.missTaken o ts).params = v.params by rw [hv]; rfl]
  exact hwork.params

/-- A FAULTED paddle has nothing granted, and keeps its miss run and its misses (R120). -/
theorem State.faulted_outlet (s : State) (o : OutletNo) : ((s.faulted o).outlet o) = { s.outlet o with paddle := .faulted }
    ∧ (vget (s.faulted o).tau.outlets o).misses = (vget s.tau.outlets o).misses := by
  have hset : (s.withOutlet o { s.outlet o with paddle := .faulted }).outlet o = { s.outlet o with paddle := .faulted } := State.outlet_setOutlet_self ..
  unfold State.faulted
  split
  · obtain ⟨w, hw⟩ : ∃ w : State, w = { s.withOutlet o { s.outlet o with paddle := .faulted } with aa := { slotsInUse := s.aa.slotsInUse - 1 } } := ⟨_, rfl⟩
    have hwo : w.outlet o = { s.outlet o with paddle := .faulted } := by rw [hw]; exact hset
    obtain ⟨g, hg⟩ := State.grantDecision_spec w
    have hnot : o ∉ g := fun h => by
      have hidle := (hg.able o h).2.1
      rw [hwo] at hidle
      cases hidle
    rw [← hw, hg.outlets, if_neg hnot, hwo, hg.strokes, if_neg fun h => hnot h.1, hw]
    exact ⟨rfl, rfl⟩
  · exact ⟨hset, rfl⟩

/-- A loss of acceptance with OUTLET raised, at an outlet that is shut (R106). -/
theorem State.lostAcceptance_outlet {u : State} {o : OutletNo} (hshut : (u.outlet o).notOpen = true) :
    Shelved (((u.withLatches 0x02).loseAcceptance o).outlet o) (u.outlet o) ∧ ((u.withLatches 0x02).loseAcceptance o).noneWaiting o
      ∧ ((u.withLatches 0x02).loseAcceptance o).tau.latches &&& 0x02 = 0x02 ∧ ((u.withLatches 0x02).loseAcceptance o).tau.outlets = u.tau.outlets := by
  have hpaper := Paperwork.loseAcceptance (u.withLatches 0x02) o
  obtain ⟨m, hm⟩ := (Work.loseAcceptance (u.withLatches 0x02) o).tau.latches
  exact ⟨hpaper.outlet o, State.loseAcceptance_noneWaiting hshut, by rw [hm]; exact latch_kept u.tau.latches 0x02 m, hpaper.outletTallies⟩

/-! ### Clusters after a miss and its grants -/

/-- The members of a cluster are granted together, so that grants keep the clusters. -/
theorem GrantDecision.clustered {s t : State} {g : List OutletNo} (h : GrantDecision t s g) (hs : s.Clustered)
    (htogether : ∀ j, ∀ r ∈ s.tc.records, ∀ l ∈ s.tc.records, l.tag = r.leaderTag → (l.tag ∈ (s.outlet j).requestMembers ↔ r.tag ∈ (s.outlet j).requestMembers)) : t.Clustered := by
  obtain ⟨f, hf⟩ : ∃ f : Record → Record, f = fun r => if ∃ j ∈ g, r.tag ∈ (s.outlet j).requestMembers then { r with state := .fired, waypoint := none } else r := ⟨_, rfl⟩
  have hrec : t.tc.records = s.tc.records.map f := by rw [hf]; exact h.records
  have hsame : ∀ r, (f r).slot = r.slot ∧ (f r).tag = r.tag ∧ (f r).cluster = r.cluster ∧ (f r).leaderTag = r.leaderTag ∧ (f r).route = r.route := fun r => by
    rw [hf]
    dsimp only
    split <;> exact ⟨rfl, rfl, rfl, rfl, rfl⟩
  refine ⟨State.tableLaw_of_tags ?_ hs.slots, fun r' hr' => ?_⟩
  · rw [hrec, List.map_map]
    exact List.map_congr_left fun r _ => (hsame r).2.1
  · rw [hrec] at hr' ⊢
    obtain ⟨r, hr, rfl⟩ := List.mem_map.mp hr'
    obtain ⟨l, hl, hlt, hleads, hstate, hroute⟩ := hs.leader r hr
    obtain ⟨-, -, -, hrlead, hrroute⟩ := hsame r
    obtain ⟨-, hltag, hlcluster, -, hlroute⟩ := hsame l
    refine ⟨f l, List.mem_map_of_mem hl, hltag.trans (hlt.trans hrlead.symm), fun t ht => hleads t (hlcluster ▸ ht), ?_, by rw [hlroute, hrroute]; exact hroute⟩
    have hiff : (∃ j ∈ g, l.tag ∈ (s.outlet j).requestMembers) ↔ ∃ j ∈ g, r.tag ∈ (s.outlet j).requestMembers :=
      exists_congr fun j => and_congr_right fun _ => htogether j r hr l hl hlt
    rw [hf]
    dsimp only
    by_cases hin : ∃ j ∈ g, r.tag ∈ (s.outlet j).requestMembers
    · rw [if_pos hin, if_pos (hiff.mpr hin)]
    · rw [if_neg hin, if_neg (mt hiff.mp hin)]
      exact hstate

/-- The members of a cluster are at an outlet in a state together (R35). -/
theorem State.Clustered.isAt {s : State} (hs : s.Clustered) {r l : Record} (hr : r ∈ s.tc.records) (hl : l ∈ s.tc.records) (h : l.leaderTag = r.leaderTag) {st : RecordState} {o : OutletNo} :
    l.isAt st o ↔ r.isAt st o := by
  obtain ⟨hstate, hroute⟩ := hs.same hr hl h
  have houtlet : l.route.map (·.outlet) = r.route.map (·.outlet) := by
    have hfst := congrArg (Option.map Prod.fst) hroute
    rw [Option.map_map, Option.map_map] at hfst
    exact hfst
  unfold Record.isAt
  rw [hstate, houtlet]

/-- A cluster waits in a request whole, or not at all (R118). -/
theorem State.booksLaw.request_whole {s : State} (hs : s.booksLaw) {r l : Record} (hr : r ∈ s.tc.records) (hl : l ∈ s.tc.records) (h : l.leaderTag = r.leaderTag) (o : OutletNo) :
    l.tag ∈ (s.outlet o).requestMembers ↔ r.tag ∈ (s.outlet o).requestMembers := by
  have hiff : ∀ q ∈ s.tc.records, q.tag ∈ (s.outlet o).requestMembers ↔ q.isAt .due o := fun q hq => by
    refine ⟨fun hin => ?_, hs.due_requestMembers hq⟩
    obtain ⟨x, hx, hxt, hat⟩ := hs.requestMembers_due hin
    rw [State.eq_of_tag hs.slots hx hq hxt.symm]
    exact hat
  rw [hiff l hl, hiff r hr, hs.clustered.isAt hr hl h]

/-- The records of a missed set are alone, and every other cluster stands whole, in the table and in the requests. -/
theorem State.booksLaw.missed_clustered {s v : State} (hs : s.booksLaw) {o : OutletNo} {set : StrokeSet} (hset : (s.outlet o).strokeSet = some set) {n : Nat}
    (hrec : v.tc.records = (s.missed o set.members n).tc.records) (hreq : ∀ j, (v.outlet j).requestMembers = (s.outlet j).requestMembers) :
    v.Clustered ∧ ∀ j, ∀ r ∈ v.tc.records, ∀ l ∈ v.tc.records, l.tag = r.leaderTag → (l.tag ∈ (v.outlet j).requestMembers ↔ r.tag ∈ (v.outlet j).requestMembers) := by
  obtain ⟨⟨-, -, hwhole⟩, -⟩ := hs.set_whole hset
  obtain ⟨f, hf⟩ : ∃ f : Record → Record, f = fun r => if set.members.contains r.tag = true then s.ride .strokeMiss r else r := ⟨_, rfl⟩
  have hmap : v.tc.records = s.tc.records.map f := by
    rw [hrec, hf]
    rfl
  have hin : ∀ r, r.tag ∈ set.members → f r = s.ride .strokeMiss r := fun r h => by
    rw [hf]
    exact if_pos (List.contains_iff_mem.mpr h)
  have hout : ∀ r, r.tag ∉ set.members → f r = r := fun r h => by
    rw [hf]
    exact if_neg (mt List.contains_iff_mem.mp h)
  have htag : ∀ r, (f r).tag = r.tag := fun r => by
    by_cases h : r.tag ∈ set.members
    · rw [hin r h]
      rfl
    · rw [hout r h]
  constructor
  · refine ⟨State.tableLaw_of_tags ?_ hs.slots, fun r' hr' => ?_⟩
    · rw [hmap, List.map_map]
      exact List.map_congr_left fun r _ => htag r
    · rw [hmap] at hr' ⊢
      obtain ⟨r, hr, rfl⟩ := List.mem_map.mp hr'
      by_cases h : r.tag ∈ set.members
      · refine ⟨f r, List.mem_map_of_mem hr, ?_, fun t ht => ?_, rfl, rfl⟩
        · rw [hin r h]
          rfl
        · rw [hin r h] at ht
          cases ht
      · obtain ⟨l, hl, hlt, hleads, hstate, hroute⟩ := hs.clustered.leader r hr
        have hlout : f l = l := hout l fun hm => h ((hwhole r hr).mp (hlt ▸ hm))
        rw [hout r h]
        exact ⟨l, List.mem_map.mpr ⟨l, hl, hlout⟩, hlt, hleads, hstate, hroute⟩
  · intro j r' hr' l' hl' hlead
    rw [hmap] at hr' hl'
    obtain ⟨r, hr, rfl⟩ := List.mem_map.mp hr'
    obtain ⟨l, hl, rfl⟩ := List.mem_map.mp hl'
    rw [hreq, htag, htag]
    rw [htag] at hlead
    by_cases h : r.tag ∈ set.members
    · rw [hin r h] at hlead
      rw [show l.tag = r.tag from hlead]
    · rw [hout r h] at hlead
      obtain ⟨m, hm, hmt, hleads, -⟩ := hs.clustered.leader r hr
      have hml : m = l := State.eq_of_tag hs.slots hl hm (hmt.trans hlead.symm)
      subst hml
      exact hs.request_whole hr hl ((Record.leaderTag_of_leads hleads).trans hmt) j

/-- The fault of a paddle keeps the clusters and their end points. -/
theorem State.faulted_clustered {m : State} {o : OutletNo} (hc : m.Clustered)
    (ht : ∀ j, ∀ r ∈ m.tc.records, ∀ l ∈ m.tc.records, l.tag = r.leaderTag → (l.tag ∈ (m.outlet j).requestMembers ↔ r.tag ∈ (m.outlet j).requestMembers))
    (ha : m.endsAhead m.bpu.position m.tc.records) : (m.faulted o).Clustered ∧ (m.faulted o).endsAhead (m.faulted o).bpu.position (m.faulted o).tc.records := by
  unfold State.faulted
  split
  · obtain ⟨w, hw⟩ : ∃ w : State, w = { m.withOutlet o { m.outlet o with paddle := .faulted } with aa := { slotsInUse := m.aa.slotsInUse - 1 } } := ⟨_, rfl⟩
    obtain ⟨g, hg⟩ := State.grantDecision_spec w
    have hwout : ∀ j, (w.outlet j).requestMembers = (m.outlet j).requestMembers := fun j => by
      rw [hw]
      refine (congrArg Outlet.requestMembers (State.outlet_setOutlet ..)).trans ?_
      split
      · next e =>
        subst e
        rfl
      · rfl
    rw [← hw]
    refine ⟨hg.clustered (hc.of_records (by rw [hw]; rfl)) fun j r hr l hl h => ?_, fun r hr => ?_⟩
    · rw [hwout]
      rw [hw] at hr hl
      exact ht j r hr l hl h
    · rw [hg.records] at hr
      obtain ⟨q, hq, rfl⟩ := List.mem_map.mp hr
      rw [hw] at hq
      have hpoint := ha q hq
      have hrest := hg.rest
      generalize w.grantDecision = t at hrest
      rw [hrest, hw]
      split
      · exact hpoint
      · exact hpoint
  · exact ⟨hc.of_records rfl, ha⟩

/-! ### The miss settled -/

theorem exec_confirmWindowExpiry (o : OutletNo) (s : State) : exec (.confirmWindowExpiry o) s = .next (s.takeDue (.confirmExpiry o)) := rfl

theorem State.stands_confirmExpiry (s : State) (o : OutletNo) :
    s.stands (.confirmExpiry o) = true ↔ (s.outlet o).strokeSet ≠ none ∧ (s.outlet o).windowFigure ≤ (s.outlet o).confirmTimer := by
  simp [State.stands, Option.isSome_iff_ne_none]

theorem State.takeDue_confirmExpiry {s : State} {o : OutletNo} {set : StrokeSet} (hdue : Event.confirmExpiry o ∈ s.due) (hset : (s.outlet o).strokeSet = some set)
    (hfigure : (s.outlet o).windowFigure ≤ (s.outlet o).confirmTimer) : s.takeDue (.confirmExpiry o) = (s.dropDue (.confirmExpiry o)).miss o set := by
  rw [State.takeDue_of hdue ((s.stands_confirmExpiry o).mpr ⟨by simp [hset], hfigure⟩)]
  unfold State.perform
  dsimp only
  rw [show ((s.dropDue (.confirmExpiry o)).outlet o).strokeSet = some set from hset]

/-- Settles O13: the set carried or at once ended, then a grant decision, or the fault and its re-routes. -/
theorem aMissCarriesTheSetAndMayFaultThePaddle : Obligations.AMissCarriesTheSetAndMayFaultThePaddle := by
  refine ⟨?_, ?_⟩
  · intro o s missed set hdue hset hfigure hs hb hlive hroutes units hunits hmissed
    obtain ⟨s₁, hs₁⟩ : ∃ s₁, s₁ = s.dropDue (.confirmExpiry o) := ⟨_, rfl⟩
    have htake : exec (.confirmWindowExpiry o) s = .next (s₁.miss o set) := by
      rw [exec_confirmWindowExpiry, State.takeDue_confirmExpiry hdue hset hfigure, hs₁]
    have hmissed₁ : missed = s₁.missed o set.members (s₁.unitsOf set.members) := by
      rw [hmissed, hs₁, hunits]
      rfl
    obtain ⟨hends, hstay⟩ := State.missTaken_ends (s := s₁) (o := o) (ts := set.members) (by rw [hs₁]; exact hs) (by rw [hs₁]; exact hb) (by rw [hs₁]; exact hlive) (by rw [hs₁]; exact hroutes)
    obtain ⟨hparams, hpaddle, hnone, hrun, hmisses⟩ := s₁.missTaken_outlet o set.members
    rw [← hmissed₁] at hends hstay
    rw [htake, State.miss_eq, hparams, hpaddle, hrun]
    obtain ⟨v, hv⟩ : ∃ v, v = s₁.missTaken o set.members := ⟨_, rfl⟩
    rw [← hv] at hends hstay ⊢
    have hends : missed.endsAtOnce (s.endedOf (s.tc.records.filter (fun r => set.members.contains r.tag))) v := by
      rw [hs₁] at hends
      exact hends
    refine ⟨fun hbelow => ?_, fun hlimit hpaddle' hbooks hahead => ?_⟩
    · obtain ⟨g, hg⟩ := State.grantDecision_spec v
      refine ⟨v, _, g, ?_, hends, hg⟩
      rw [if_neg]
      rintro ⟨hle, hne⟩
      obtain hlt | hf := hbelow
      · rw [hs₁] at hle
        exact absurd (hle.trans (Nat.min_le_right _ _)) (Nat.not_le_of_lt hlt)
      · rw [hs₁] at hne
        exact hne hf
    · have hvm : v = missed := hstay (by rw [hs₁]; exact hahead)
      have hmo : missed.outlet o = { (s.outlet o).less units with strokeSet := none, missRun := min 15 ((s.outlet o).missRun + 1) } := by
        rw [hmissed]
        exact State.outlet_setOutlet_self ..
      have hmpaddle : (missed.outlet o).paddle = (s.outlet o).paddle := by
        rw [hmo]
        rfl
      have hfault : (missed.outlet o).paddle ≠ .faulted := hmpaddle ▸ hpaddle'
      rw [if_pos ⟨by rw [hs₁]; exact hlimit, by rw [hs₁]; exact hpaddle'⟩, hvm, State.enterFaulted_eq hfault]
      obtain ⟨hclustered, htogether⟩ := hbooks.missed_clustered hset (v := missed) (n := units) (by rw [hmissed]; rfl) (fun j => by
        rw [hmissed]
        refine (congrArg Outlet.requestMembers (State.outlet_setOutlet ..)).trans ?_
        split
        · next e =>
          subst e
          rfl
        · rfl)
      have hmahead : missed.endsAhead missed.bpu.position missed.tc.records := fun r hr => by
        rw [hmissed] at hr ⊢
        obtain ⟨q, hq, rfl⟩ := List.mem_map.mp hr
        have hpoint := hahead q hq
        split
        · exact hpoint
        · exact hpoint
      obtain ⟨hfc, hfa⟩ := State.faulted_clustered (o := o) hclustered htogether hmahead
      refine ⟨_, missed.faulted o, rfl, fun hstroke => ?_, fun hstroke => if_neg (hmpaddle ▸ hstroke), ?_⟩
      · unfold State.faulted
        rw [if_pos (hmpaddle ▸ hstroke), show missed.aa = s.aa by rw [hmissed]; rfl]
        exact State.grantDecision_spec _
      · exact (hfc.of_records (t := (missed.faulted o).withLatches 0x02) rfl).loseAcceptance hfa o
  · intro o s
    rw [exec_confirmWindowExpiry]
    refine ⟨fun hdue hset hfigure hlimit hpaddle => ?_, fun h => by rw [State.takeDue_of_not (by rwa [State.stands_confirmExpiry])]⟩
    obtain ⟨set, hset⟩ := Option.ne_none_iff_exists'.mp hset
    rw [State.takeDue_confirmExpiry hdue hset hfigure]
    have hwork := Work.miss (s.dropDue (.confirmExpiry o)) o set
    obtain ⟨s₁, hs₁⟩ : ∃ s₁, s₁ = s.dropDue (.confirmExpiry o) := ⟨_, rfl⟩
    obtain ⟨hparams, hpaddle₁, hnone, hrun, hmisses⟩ := s₁.missTaken_outlet o set.members
    have hmiss : s₁.miss o set = (((s₁.missTaken o set.members).faulted o).withLatches 0x02).loseAcceptance o := by
      rw [State.miss_eq, hparams, hpaddle₁, hrun, if_pos ⟨by rw [hs₁]; exact hlimit, by rw [hs₁]; exact hpaddle⟩]
      exact State.enterFaulted_eq (by rw [hpaddle₁, hs₁]; exact hpaddle)
    obtain ⟨hfout, hfmisses⟩ := (s₁.missTaken o set.members).faulted_outlet o
    obtain ⟨hshelved, hwaiting, hlatch, htallies⟩ := State.lostAcceptance_outlet (u := (s₁.missTaken o set.members).faulted o) (o := o)
      (Outlet.notOpen_of_faulted (by rw [hfout]))
    obtain ⟨hp, hss, -, hmr, -⟩ := hshelved.same
    rw [hfout] at hp hss hmr
    rw [← hs₁] at hwork ⊢
    rw [hmiss] at hwork ⊢
    refine ⟨_, rfl, hp, hss.trans hnone, hmr.trans (hrun.trans (by rw [hs₁]; rfl)), hlatch, hwaiting, ?_, ?_, ?_, ?_, ?_⟩
    · rw [htallies, hfmisses, hmisses, hs₁]
      rfl
    · rw [hwork.bpu, hs₁]
      rfl
    · rw [hwork.pins, hs₁]
      rfl
    · rw [hwork.due, hs₁]
      rfl
    · rw [hs₁] at hwork ⊢
      exact hwork.keptByWork.of_dropDue

end Sys2Proof.Machine
end

section
/-! PROOFS. A notice that passes the checks: the new record in its place, and what it overlaps (spec/02, creating a record and clusters). -/

namespace Sys2Proof.Machine

/-! ### The new record -/

/-- The lowest FREE slot is the one found (R25). -/
theorem State.freeSlot_of {s : State} {slot : Slot} (hfree : ∀ q ∈ s.tc.records, q.slot ≠ slot) (hlow : ∀ i : Slot, i < slot → ∃ q ∈ s.tc.records, q.slot = i) :
    s.freeSlot = some slot := by
  cases h : s.freeSlot with
  | none =>
    have hs := s.freeSlotFrom_spec 256 0
    rw [show s.freeSlotFrom 256 0 = none from h] at hs
    have hfin : Fin.ofNat 256 slot.val = slot := Fin.ext (Nat.mod_eq_of_lt slot.isLt)
    exact absurd (State.slotRecord_eq_none.mpr hfree) (hfin ▸ hs slot.val (Nat.zero_le _) (by omega))
  | some i =>
    obtain ⟨hi, hlowi⟩ := State.freeSlot_some h
    obtain hlt | heq | hgt := lt_trichotomy i slot
    · obtain ⟨q, hq, hqi⟩ := hlow i hlt
      exact absurd hqi (hi q hq)
    · rw [heq]
    · obtain ⟨q, hq, hqs⟩ := hlowi slot hgt
      exact absurd hqs (hfree q hq)

theorem recordLength_eq (len : BitVec 16) : recordLength len = if len.toNat = 0 then 1 else min 4095 len.toNat := by
  unfold recordLength clamp
  split <;> omega

/-- A notice that passes the checks creates its record (R150 to R156). -/
theorem State.PassesChecks.exec {s : State} {n : Byte} {stamp st : Pos} {len : BitVec 16} {clamped : Bool} {ln : Nat} {slot : Slot} (h : s.PassesChecks n stamp len clamped st ln slot)
    (c : ClassNo) (k : KeyNo) :
    Sys2Proof.Machine.exec (.notice n stamp len c k) s = .next ((s.numbered n).enterRecord (freshRecord slot (vget s.tc.gens slot) n st ln c k clamped)) := by
  obtain ⟨hactive, hserving, horder, ⟨hlow, hhigh⟩, hclamped, hst, hfresh, hln, hfree, hlowest⟩ := h
  have hbeyond : (atOrBeyond stamp s.bpu.position && stamp != s.bpu.position) = clamped := by
    rw [hclamped, Bool.eq_iff_iff]
    simp [atOrBeyond]
  have hslot : (s.numbered n).freeSlot = some slot := State.freeSlot_of hfree hlowest
  rw [exec_notice_active hactive, State.judgeNotice_numbered horder hlow hhigh, if_neg (not_not.mpr hserving), hbeyond, ← hst, if_neg (show ¬s.params.noticeAge < ahead s.bpu.position st from Nat.not_lt.mpr hfresh)]
  unfold State.create
  rw [hslot]
  dsimp only
  rw [newRecord, recordLength_eq, ← hln]
  rfl

/-- The place of the new record in the belt-order list (R31). -/
theorem insertByStamp_placed {r : Record} {before after : List Record} (h : placedAt r.stamp before after) : insertByStamp r (before ++ after) = before ++ r :: after := by
  obtain ⟨hbefore, hafter⟩ := h
  induction before with
  | nil =>
    cases after with
    | nil => rfl
    | cons x xs => exact if_neg (by rw [hafter x rfl]; exact Bool.false_ne_true)
  | cons x xs ih =>
    have hx := hbefore x List.mem_cons_self
    exact (if_pos hx).trans (congrArg (x :: ·) (ih fun q hq => hbefore q (List.mem_cons_of_mem x hq)))

/-! ### What it overlaps -/

theorem overlaps_iff {clearance : Nat} {q r : Record} : overlaps clearance q r = true ↔ ¬q.apartFrom clearance r.stamp r.length := by
  unfold overlaps Record.apartFrom
  by_cases h : atOrBeyond r.stamp q.stamp = true
  · simp [h]
  · simp [h]

/-- The merged set: what overlaps, and the rest of its clusters (R34). -/
theorem State.mem_mergedSet {s : State} {r q : Record} :
    q ∈ s.mergedSet r ↔ q ∈ s.tc.records ∧ ∃ h ∈ s.tc.records, ¬h.apartFrom s.params.clearance r.stamp r.length ∧ h.leaderTag = q.leaderTag := by
  unfold State.mergedSet
  simp only [List.mem_filter, List.any_eq_true, beq_iff_eq, overlaps_iff, and_assoc]

/-! ### Entering the table -/

/-- A new record in a FREE slot: no live record has its tag. -/
theorem tag_ne_of_free {s : State} {r : Record} (hfree : ∀ q ∈ s.tc.records, q.slot ≠ r.slot) : ∀ q ∈ s.tc.records, q.tag ≠ r.tag :=
  fun q hq e => hfree q hq (congrArg Tag.slot e)

/-- A record that overlaps nothing enters alone, with its decision point (R32, R34). -/
theorem State.enterRecord_apart {s : State} {r : Record} {before after : List Record} (hrec : s.tc.records = before ++ after) (hplace : placedAt r.stamp before after)
    (hfree : ∀ q ∈ s.tc.records, q.slot ≠ r.slot) (hapart : ∀ q ∈ s.tc.records, q.apartFrom s.params.clearance r.stamp r.length) :
    s.enterRecord r = (s.setRecords (before ++ { r with waypoint := some (s.decisionPoint r) } :: after)).decideIfReached r.tag := by
  have hnone : s.mergedSet r = [] := List.eq_nil_iff_forall_not_mem.mpr fun q hq => by
    obtain ⟨-, h, hh, hnot, -⟩ := State.mem_mergedSet.mp hq
    exact hnot (hapart h hh)
  have hne := tag_ne_of_free hfree
  rw [hrec] at hne
  have hsame : ∀ l : List Record, (∀ q ∈ l, q.tag ≠ r.tag) → l.map (fun x => if (x.tag == r.tag) = true then { x with waypoint := some (s.decisionPoint x) } else x) = l := fun l hl =>
    (List.map_congr_left fun q hq => if_neg (by simpa using hl q hq)).trans (List.map_id _)
  unfold State.enterRecord
  dsimp only
  rw [hnone]
  refine congrArg (fun rs : List Record => (s.setRecords rs).decideIfReached r.tag) ?_
  show (insertByStamp r s.tc.records).map (fun x => if (x.tag == r.tag) = true then { x with waypoint := some (s.decisionPoint x) } else x) = _
  rw [hrec, insertByStamp_placed hplace]
  rw [List.map_append, List.map_cons, hsame before fun q hq => hne q (List.mem_append_left _ hq), hsame after fun q hq => hne q (List.mem_append_right _ hq), if_pos (beq_self_eq_true _)]

/-- A decision point that lies ahead waits for its tick (R19). -/
theorem State.decideIfReached_ahead {s : State} {r : Record} (hr : s.find r.tag = some r) {w : Pos} (hw : r.waypoint = some w) (hahead : atOrBeyond s.bpu.position w = false) :
    s.decideIfReached r.tag = s := by
  unfold State.decideIfReached
  rw [hr]
  dsimp only
  rw [hw]
  exact if_neg fun h => by
    rw [hahead] at h
    exact Bool.false_ne_true h.2

/-- One that lies at or behind the position decides at once (R19). -/
theorem State.decideIfReached_reached {s : State} {r : Record} (hr : s.find r.tag = some r) {w : Pos} (hw : r.waypoint = some w) (hst : r.state = .pending)
    (hreached : atOrBeyond s.bpu.position w = true) : s.decideIfReached r.tag = s.decisionWalk r.tag := by
  unfold State.decideIfReached
  rw [hr]
  dsimp only
  rw [hw]
  exact if_pos ⟨hst, hreached⟩

/-- Settles O31: the record alone in its place, and its decision when its point is reached. -/
theorem noticeCreatesALoneRecord : Obligations.NoticeCreatesALoneRecord := by
  intro s u n stamp st len c k ln clamped slot before after new hpass hrec hplace hapart hnew hu
  obtain ⟨r, hr⟩ : ∃ r, r = freshRecord slot (vget s.tc.gens slot) n st ln c k clamped := ⟨_, rfl⟩
  have hfree : ∀ q ∈ s.tc.records, q.slot ≠ r.slot := by
    rw [hr]
    exact hpass.free
  have htag : new.tag = r.tag := by
    rw [hnew, hr]
    rfl
  have henter : (s.numbered n).enterRecord r = u.decideIfReached new.tag := by
    have h := State.enterRecord_apart (s := s.numbered n) (r := r) hrec (by rw [hr]; exact hplace) hfree (by rw [hr]; exact hapart)
    rw [htag, hu, hnew, h, hr]
    rfl
  have hmem : ∀ {q}, q ∈ u.tc.records ↔ q = new ∨ q ∈ s.tc.records := fun {q} => by
    rw [hu, hrec]
    simp only [List.mem_append, List.mem_cons]
    tauto
  have hone : ∀ q ∈ u.tc.records, q.tag = new.tag → q = new := fun q hq e => by
    obtain h | h := hmem.mp hq
    · exact h
    · exact absurd (e.trans htag) (tag_ne_of_free hfree q h)
  have hfind : u.find new.tag = some new := State.find_one (hmem.mpr (.inl rfl)) hone
  have hway : new.waypoint = some (plus st s.params.q) := by rw [hnew]
  have hpos : u.bpu.position = s.bpu.position := by
    rw [hu]
    rfl
  rw [hpass.exec c k, ← hr, henter]
  refine ⟨fun hahead => by rw [State.decideIfReached_ahead hfind hway (by rw [hpos]; exact hahead)], fun hreached halone hend => ?_⟩
  have hmembers : u.membersOf new.tag = [new] := by
    have hnone : ∀ l : List Record, (∀ q ∈ l, q ∈ s.tc.records) → l.filter (fun q => q.leaderTag == new.tag) = [] := fun l hl =>
      List.filter_eq_nil_iff.mpr fun q hq => by simpa using halone q (hl q hq)
    have hself : (new.leaderTag == new.tag) = true := by
      rw [hnew]
      exact beq_self_eq_true _
    rw [State.membersOf, hu]
    show (before ++ new :: after).filter (fun q => q.leaderTag == new.tag) = [new]
    rw [List.filter_append, List.filter_cons_of_pos (p := fun q : Record => q.leaderTag == new.tag) (a := new) hself, hnone before fun q hq => hrec ▸ List.mem_append_left _ hq, hnone after fun q hq => hrec ▸ List.mem_append_right _ hq]
    rfl
  refine ⟨_, rfl, ?_⟩
  rw [State.decideIfReached_reached hfind hway (by rw [hnew]; rfl) (by rw [hpos]; exact hreached)]
  have hdecides := State.decisionWalk_own (s := u) (lead := new) ⟨?_, ?_⟩ hfind
  · rw [hmembers] at hdecides
    refine hdecides (fun q hq => ?_) fun q hq => ?_
    · rw [List.mem_singleton.mp hq, hnew]
      rfl
    · rw [List.mem_singleton.mp hq, hpos, hu]
      exact hend
  · rw [hmembers]
    exact List.nodup_singleton _
  · intro q hq hin
    rw [hmembers] at hin
    rw [hone q hq (by simpa using hin), hnew]
    rfl

/-! ### Linked with what it overlaps -/

/-- The new record among the live ones, in belt order. -/
structure State.Enters (s : State) (r : Record) (list : List Record) : Prop where
  table : s.tableLaw
  free : ∀ q ∈ s.tc.records, q.slot ≠ r.slot
  list : insertByStamp r s.tc.records = list

section
variable {s : State} {r : Record} {list : List Record}

theorem State.Enters.mem (h : s.Enters r list) {q : Record} : q ∈ list ↔ q = r ∨ q ∈ s.tc.records := by
  rw [← h.list]
  exact mem_insertByStamp

theorem State.Enters.tableLaw (h : s.Enters r list) : (s.setRecords list).tableLaw := by
  rw [← h.list]
  exact State.inserted_tableLaw h.table h.free

theorem State.Enters.eq_of_tag (h : s.Enters r list) {x y : Record} (hx : x ∈ list) (hy : y ∈ list) (e : y.tag = x.tag) : y = x := State.eq_of_tag h.tableLaw hx hy e

theorem State.Enters.not_mem (h : s.Enters r list) : r ∉ s.tc.records := fun hr => h.free r hr rfl

/-- The tags of the merged set, the new record among them, in belt order (R34). -/
theorem State.Enters.merged (h : s.Enters r list) :
    ((list.filter (fun x => x.tag == r.tag || (s.mergedSet r).any (fun y => y.tag == x.tag))).Perm (r :: s.mergedSet r)) ∧
      ∀ x ∈ list, (x.tag == r.tag || (s.mergedSet r).any (fun y => y.tag == x.tag)) = true ↔ x ∈ r :: s.mergedSet r := by
  have hsub : ∀ y ∈ s.mergedSet r, y ∈ list := fun y hy => h.mem.mpr (.inr (State.mem_mergedSet.mp hy).1)
  have hiff : ∀ x ∈ list, (x.tag == r.tag || (s.mergedSet r).any (fun y => y.tag == x.tag)) = true ↔ x ∈ r :: s.mergedSet r := fun x hx => by
    rw [Bool.or_eq_true, beq_iff_eq, List.any_eq_true, List.mem_cons]
    refine or_congr ⟨fun e => h.eq_of_tag (h.mem.mpr (.inl rfl)) hx e, fun e => by rw [e]⟩ ⟨fun ⟨y, hy, e⟩ => ?_, fun hx => ⟨x, hx, beq_self_eq_true _⟩⟩
    rw [← h.eq_of_tag hx (hsub y hy) (beq_iff_eq.mp e)]
    exact hy
  have hnodup : list.Nodup := List.Nodup.of_map _ h.tableLaw
  refine ⟨(List.perm_ext_iff_of_nodup (hnodup.filter _) ?_).mpr fun x => ?_, hiff⟩
  · refine List.nodup_cons.mpr ⟨fun hr => h.not_mem (State.mem_mergedSet.mp hr).1, ?_⟩
    exact (List.Nodup.of_map _ h.table).filter _
  · rw [List.mem_filter]
    refine ⟨fun ⟨hx, hp⟩ => (hiff x hx).mp hp, fun hx => ?_⟩
    have hxl : x ∈ list := (List.mem_cons.mp hx).elim (fun e => h.mem.mpr (.inl e)) (hsub x)
    exact ⟨hxl, (hiff x hxl).mpr hx⟩

/-- A record of a cluster as it is linked under its leader (R35). -/
def State.linked (s : State) (lead : Tag) (n : Nat) (q : Record) : Record :=
  if q.tag = lead then { q with cluster := some (.leader n), waypoint := some (s.decisionPoint q) } else { q with cluster := some (.member lead), waypoint := none }

/-- A record that overlaps only PENDING clusters, of up to 7 members, makes one cluster with them (R34, R35). -/
theorem State.Enters.links (h : s.Enters r list) {m : List Record} (hm : s.mergedSet r = m) (hne : m ≠ []) (hpending : ∀ q ∈ m, q.state = .pending) (hlen : m.length ≤ 7)
    {pre post : List Record} {lead : Record} (hlist : list = pre ++ lead :: post) (hin : lead ∈ r :: m) (hpre : ∀ q ∈ pre, q ∉ r :: m) :
    s.enterRecord r = (s.setRecords (list.map (fun q => if q.tag ∈ (r :: m).map Record.tag then s.linked lead.tag (m.length + 1) q else q))).decideIfReached lead.tag := by
  obtain ⟨hperm, hiff⟩ := h.merged
  rw [hm] at hperm hiff
  obtain ⟨tags, htags⟩ : ∃ tags, tags = (list.filter (fun x => x.tag == r.tag || m.any (fun y => y.tag == x.tag))).map Record.tag := ⟨_, rfl⟩
  have hmem : ∀ t, t ∈ tags ↔ t ∈ (r :: m).map Record.tag := fun t => by
    rw [htags]
    exact (hperm.map Record.tag).mem_iff
  have hlength : tags.length = m.length + 1 := by
    rw [htags, List.length_map, hperm.length_eq]
    rfl
  have hof : ∀ q ∈ list, tags.contains q.tag = true ↔ q ∈ r :: m := fun q hq => by
    rw [List.contains_iff_mem, hmem]
    refine ⟨fun hq' => ?_, fun hq' => List.mem_map_of_mem hq'⟩
    obtain ⟨x, hx, e⟩ := List.mem_map.mp hq'
    have hxl : x ∈ list := List.mem_of_mem_filter (hperm.mem_iff.mpr hx)
    rw [h.eq_of_tag hxl hq e.symm]
    exact hx
  have hleadl : lead ∈ list := hlist ▸ List.mem_append_right _ List.mem_cons_self
  have hfind : list.find? (fun q => tags.contains q.tag) = some lead := by
    rw [List.find?_eq_some_iff_append]
    refine ⟨(hof lead hleadl).mpr hin, pre, post, hlist, fun q hq => ?_⟩
    have hql : q ∈ list := hlist ▸ List.mem_append_left _ hq
    rw [Bool.not_eq_true', Bool.eq_false_iff]
    exact mt (hof q hql).mp (hpre q hq)
  have hhead : tags.head? = some lead.tag := by
    have hskip : pre.filter (fun x => x.tag == r.tag || m.any (fun y => y.tag == x.tag)) = [] := List.filter_eq_nil_iff.mpr fun q hq =>
      mt (hiff q (hlist ▸ List.mem_append_left _ hq)).mp (hpre q hq)
    rw [htags, hlist, List.filter_append, hskip, List.filter_cons_of_pos (p := fun x : Record => x.tag == r.tag || m.any (fun y => y.tag == x.tag)) (a := lead)
      ((hiff lead hleadl).mpr hin)]
    rfl
  have hall : (m.all (fun x => x.state == .pending) && decide (m.length < 8)) = true := by
    rw [Bool.and_eq_true, List.all_eq_true, decide_eq_true_eq]
    exact ⟨fun q hq => beq_iff_eq.mpr (hpending q hq), by omega⟩
  have hlink : (s.setRecords list).linkCluster tags
      = s.setRecords (list.map (fun q => if q.tag ∈ (r :: m).map Record.tag then s.linked lead.tag (m.length + 1) q else q)) := by
    unfold State.linkCluster
    rw [show (s.setRecords list).tc.records = list from rfl, hfind, hlength]
    refine congrArg s.setRecords (List.map_congr_left fun q _ => ?_)
    have hq : tags.contains q.tag = true ↔ q.tag ∈ (r :: m).map Record.tag := List.contains_iff_mem.trans (hmem _)
    by_cases hin : q.tag ∈ (r :: m).map Record.tag
    · rw [if_pos (hq.mpr hin), if_pos hin]
      rfl
    · rw [if_neg (mt hq.mp hin), if_neg hin]
  unfold State.enterRecord
  dsimp only
  rw [hm, h.list, if_neg (by simpa using hne)]
  rw [show (s.setRecords list).tc.records = list from rfl, ← htags, if_pos hall, hlink, hhead]

theorem State.linked_tag (s : State) (lead : Tag) (n : Nat) (q : Record) : (s.linked lead n q).tag = q.tag := by
  unfold State.linked
  split <;> rfl

/-- The linked leader is found in its table. -/
theorem State.Enters.find_linked (h : s.Enters r list) {ts : List Tag} {n : Nat} {lead : Record} (hlead : lead ∈ list) (hin : lead.tag ∈ ts) :
    (s.setRecords (list.map (fun q => if q.tag ∈ ts then s.linked lead.tag n q else q))).find lead.tag
      = some { lead with cluster := some (.leader n), waypoint := some (s.decisionPoint lead) } := by
  have htable : (s.setRecords (list.map (fun q => if q.tag ∈ ts then s.linked lead.tag n q else q))).tableLaw := by
    refine State.tableLaw_of_tags (List.map_map.trans (List.map_congr_left fun q _ => ?_)) h.tableLaw
    simp only [Function.comp]
    split
    · exact s.linked_tag lead.tag n q
    · rfl
  exact State.find_tag htable (r := { lead with cluster := some (.leader n), waypoint := some (s.decisionPoint lead) })
    (List.mem_map.mpr ⟨lead, hlead, (if_pos hin).trans (if_pos rfl)⟩)

/-- ... with the leader's decision point ahead. -/
theorem State.Enters.links_ahead (h : s.Enters r list) {m : List Record} (hm : s.mergedSet r = m) (hne : m ≠ []) (hpending : ∀ q ∈ m, q.state = .pending) (hlen : m.length ≤ 7)
    {pre post : List Record} {lead : Record} (hlist : list = pre ++ lead :: post) (hin : lead ∈ r :: m) (hpre : ∀ q ∈ pre, q ∉ r :: m)
    (hahead : atOrBeyond s.bpu.position (s.decisionPoint lead) = false) :
    s.enterRecord r = s.setRecords (list.map (fun q => if q.tag ∈ (r :: m).map Record.tag then s.linked lead.tag (m.length + 1) q else q)) := by
  rw [h.links hm hne hpending hlen hlist hin hpre]
  exact State.decideIfReached_ahead (r := { lead with cluster := some (.leader (m.length + 1)), waypoint := some (s.decisionPoint lead) })
    (h.find_linked (hlist ▸ List.mem_append_right _ List.mem_cons_self) (List.mem_map_of_mem hin)) rfl hahead

end

end Sys2Proof.Machine
end

section
/-! PROOFS. A merged set that is CARRIED, cluster by cluster (spec/02, clusters): what becomes of its records and of the outlets they leave. -/

namespace Sys2Proof.Machine

/-! ### An outlet that records leave -/

/-- The records of a list that leave an outlet as they are CARRIED (R36, R39). -/
def leavers (o : OutletNo) (h : List Record) : List Record := h.filter (fun q => decide (q.leavesAt o))

/-- An outlet record without the ROUTED and DUE records of a list: their units, the latest fire point of their clusters and their request are gone (R39, R77, R98, R121). -/
def Outlet.relieved (x : Outlet) (o : OutletNo) (h : List Record) : Outlet :=
  if leavers o h = [] then x
  else { x.less ((leavers o h).map (fun q => q.unitsAt o)).sum with
    latest := if ∃ l, x.latest = some l ∧ ∃ q ∈ leavers o h, q.leaderTag = l.owner then none else x.latest
    request := if ∃ q ∈ leavers o h, q.leaderTag ∈ x.requestMembers then none else x.request }

theorem leavers_append (o : OutletNo) (h c : List Record) : leavers o (h ++ c) = leavers o h ++ leavers o c := List.filter_append ..

/-- Records without routes leave no outlet. -/
theorem leavers_free {o : OutletNo} {c : List Record} (h : ∀ r ∈ c, r.route = none) : leavers o c = [] := List.filter_eq_nil_iff.mpr fun r hr => by
  simp [Record.leavesAt, Record.isAt, h r hr]

/-- A booked cluster leaves its own outlet whole, and no other. -/
theorem leavers_booked {s : State} {o : OutletNo} {t : Tag} {c : List Record} (h : s.BookedAt o t c) (j : OutletNo) : leavers j c = if j = o then c else [] := by
  have hat : ∀ r ∈ c, r.route.map (·.outlet) = some o := fun r hr => by
    obtain ⟨route, hroute, ho⟩ := h.routed r hr
    rw [hroute, ← ho]
    rfl
  by_cases hj : j = o
  · subst hj
    rw [if_pos rfl]
    refine List.filter_eq_self.mpr fun r hr => decide_eq_true ?_
    exact (h.waits r hr).imp (fun e => ⟨e, hat r hr⟩) fun e => ⟨e, hat r hr⟩
  · rw [if_neg hj]
    refine List.filter_eq_nil_iff.mpr fun r hr => ?_
    rw [decide_eq_true_eq]
    have hne : r.route.map (·.outlet) ≠ some j := fun e => hj (Option.some.inj (e.symm.trans (hat r hr)))
    exact fun hl => hl.elim (fun e => hne e.2) fun e => hne e.2

theorem routeUnits_at {o : OutletNo} {c : List Record} (h : RoutedAt o c) : (c.map (fun q => q.unitsAt o)).sum = routeUnits c := by
  refine congrArg List.sum (List.map_congr_left fun r hr => ?_)
  obtain ⟨route, hroute, ho⟩ := h r hr
  simp [Record.unitsAt, hroute, ho]

/-- An outlet relieved of more records, of one cluster booked there. -/
theorem Outlet.relieved_append {s : State} {o : OutletNo} {t : Tag} {c : List Record} (hc : s.BookedAt o t c) (x : Outlet) (h : List Record) :
    x.relieved o (h ++ c) = (x.relieved o h).without t (routeUnits c) := by
  have hlead : ∀ q ∈ c, q.leaderTag = t := fun q hq => by
    rw [← hc.members] at hq
    exact (State.mem_membersOf.mp hq).2
  obtain ⟨r, rest, hr⟩ := List.exists_cons_of_ne_nil hc.nonempty
  have hrc : r ∈ c := hr ▸ List.mem_cons_self
  have hany : ∀ p : Tag → Prop, (∃ q ∈ leavers o h ++ c, p q.leaderTag) ↔ (∃ q ∈ leavers o h, p q.leaderTag) ∨ p t := fun p => by
    simp only [List.mem_append, or_and_right, exists_or]
    exact or_congr_right ⟨fun ⟨q, hq, hp⟩ => hlead q hq ▸ hp, fun hp => ⟨r, hrc, (hlead r hrc).symm ▸ hp⟩⟩
  have hunits := routeUnits_at hc.routed
  unfold Outlet.relieved
  rw [leavers_append, leavers_booked hc, if_pos rfl, if_neg (by simp [hr]), List.map_append, List.sum_append, hunits]
  generalize leavers o h = g at hany
  have hlatest : ∀ l : Latest, (∃ q ∈ g ++ c, q.leaderTag = l.owner) ↔ (∃ q ∈ g, q.leaderTag = l.owner) ∨ t = l.owner := fun l => hany (· = l.owner)
  have hrequest := hany (· ∈ x.requestMembers)
  simp only [hlatest, hrequest]
  by_cases hg : g = []
  · subst hg
    simp only [if_true, List.not_mem_nil, false_and, exists_false, false_or, List.map_nil, List.sum_nil, Nat.zero_add]
    unfold Outlet.without
    simp only [eq_comm]
  · rw [if_neg hg]
    have hkept : ∀ (a b : Nat) (l : Option Latest) (w : Option Request), ({ x.less a with latest := l, request := w } : Outlet).less b = { x.less (a + b) with latest := l, request := w } :=
      fun a b l w => by
        rw [← Outlet.less_less]
        rfl
    unfold Outlet.without
    rw [hkept]
    congr 1
    · cases x.latest with
      | none => simp
      | some l =>
        by_cases hown : ∃ q ∈ g, q.leaderTag = l.owner
        · simp [hown]
        · have hflip : (∃ l', some l = some l' ∧ l'.owner = t) ↔ ∃ l', some l = some l' ∧ ((∃ q ∈ g, q.leaderTag = l'.owner) ∨ t = l'.owner) := by
            simp only [Option.some.injEq, exists_eq_left', hown, false_or]
            exact eq_comm
          simp only [Option.some.injEq, exists_eq_left', hown, if_false] at hflip ⊢
          simp only [hflip]
    · by_cases hreq : ∃ q ∈ g, q.leaderTag ∈ x.requestMembers
      · simp [hreq]
      · simp only [hreq, false_or, if_false]
        rfl

/-- A CLOSING rack relieved of its last unit (R98). -/
def Outlet.relievedEmpty (x : Outlet) (o : OutletNo) (h : List Record) : Prop := leavers o h ≠ [] ∧ x.rack = .closing ∧ (x.relieved o h).committed = 0

theorem Outlet.relieved_committed (x : Outlet) (o : OutletNo) (h : List Record) : (x.relieved o h).committed = x.committed - ((leavers o h).map (fun q => q.unitsAt o)).sum := by
  unfold Outlet.relieved
  split
  · next hnil => rw [hnil, List.map_nil, List.sum_nil, Nat.sub_zero]
  · rfl

theorem Outlet.relieved_rack (x : Outlet) (o : OutletNo) (h : List Record) :
    (x.relieved o h).rack = if leavers o h ≠ [] ∧ x.rack = .closing ∧ (x.relieved o h).committed = 0 then .swapReady else x.rack := by
  rw [Outlet.relieved_committed]
  unfold Outlet.relieved
  by_cases hnil : leavers o h = []
  · rw [if_pos hnil, if_neg fun e => e.1 hnil]
  · rw [if_neg hnil]
    simp only [ne_eq, hnil, not_false_eq_true, true_and, Nat.sub_eq_zero_iff_le]
    rfl

/-- The rack is emptied by the clusters taken off so far, or by the next (R98). -/
theorem Outlet.relievedEmpty_append {s : State} {o : OutletNo} {t : Tag} {c : List Record} (hc : s.BookedAt o t c) (x : Outlet) (h : List Record) :
    x.relievedEmpty o (h ++ c) ↔ x.relievedEmpty o h ∨ ((x.relieved o h).rack = .closing ∧ (x.relieved o h).committed ≤ routeUnits c) := by
  have hcommitted : (x.relieved o (h ++ c)).committed = (x.relieved o h).committed - routeUnits c := by
    rw [Outlet.relieved_append hc]
    rfl
  have hne : leavers o (h ++ c) ≠ [] := by
    rw [leavers_append, leavers_booked hc, if_pos rfl]
    exact fun e => hc.nonempty (List.append_eq_nil_iff.mp e).2
  unfold Outlet.relievedEmpty
  rw [hcommitted, Outlet.relieved_rack]
  simp only [hne, ne_eq, not_false_eq_true, true_and, Nat.sub_eq_zero_iff_le]
  by_cases hempty : leavers o h ≠ [] ∧ x.rack = .closing ∧ (x.relieved o h).committed = 0
  · rw [if_pos hempty]
    obtain ⟨h1, h2, h3⟩ := hempty
    exact iff_of_true ⟨h2, by omega⟩ (.inl ⟨h1, h2, h3⟩)
  · rw [if_neg hempty]
    exact ⟨.inr, fun e => e.elim (fun e => absurd e hempty) id⟩

/-! ### A table with a list of its records CARRIED -/

/-- The part with the records `h` of the table CARRIED at once (R36, R39). -/
structure State.Carried (v s : State) (why : CarryReason) (h : List Record) : Prop where
  records : v.tc = { s.tc with records := s.tc.records.map (fun q => if q.tag ∈ h.map Record.tag then s.ride why q else q) }
  outlets : ∀ o, v.outlet o = (s.outlet o).relieved o h
  emptied : ∃ b : Bool, (b = true ↔ ∃ o, (s.outlet o).relievedEmpty o h) ∧ v.tau = { s.tau with latches := s.tau.latches ||| if b then 0x01 else 0 }
  rest : v = { s with tc := v.tc, outlets := v.outlets, tau := v.tau }

theorem State.Carried.refl (s : State) (why : CarryReason) : s.Carried s why [] where
  records := by simp
  outlets o := rfl
  emptied := ⟨false, by simp [Outlet.relievedEmpty, leavers], by simp⟩
  rest := rfl

section
variable {v s : State} {why : CarryReason} {h c : List Record} {t : Tag}

theorem State.Carried.bpu_params (hv : v.Carried s why h) : v.bpu = s.bpu ∧ v.params = s.params := by
  rw [hv.rest]
  exact ⟨rfl, rfl⟩

/-- What changes only the table, the outlets and the tallies of a part so CARRIED. -/
theorem State.Carried.rest_of (hv : v.Carried s why h) {w : State} (hw : w = { v with tc := w.tc, outlets := w.outlets, tau := w.tau }) :
    w = { s with tc := w.tc, outlets := w.outlets, tau := w.tau } :=
  hw.trans (congrArg (fun x : State => { x with tc := w.tc, outlets := w.outlets, tau := w.tau }) hv.rest)

theorem State.Carried.tableLaw (hv : v.Carried s why h) (hs : s.tableLaw) : v.tableLaw := by
  refine State.tableLaw_of_tags ?_ hs
  rw [hv.records, List.map_map]
  refine List.map_congr_left fun q _ => ?_
  simp only [Function.comp]
  split <;> rfl

/-- A cluster with its leader live, none of it CARRIED yet. -/
theorem State.Carried.members (hv : v.Carried s why h) (hs : s.tableLaw) (hc : s.membersOf t = c) (hlead : ∃ l ∈ c, l.tag = t) (hh : ∀ q ∈ h, q ∈ s.tc.records ∧ q ∉ c) :
    v.membersOf t = c := by
  obtain ⟨l, hl, hlt⟩ := hlead
  have hlr := State.mem_membersOf.mp (hc ▸ hl)
  have hout : ∀ q ∈ s.tc.records, q.tag ∈ h.map Record.tag → q.leaderTag ≠ t ∧ q.tag ≠ t := fun q hq hin => by
    have hqh := (State.mem_tags_iff hs (fun r hr => (hh r hr).1) hq).mp hin
    refine ⟨fun e => (hh q hqh).2 (hc ▸ State.mem_membersOf.mpr ⟨hq, e⟩), fun e => (hh q hqh).2 ?_⟩
    rw [State.eq_of_tag hs hlr.1 hq (e.trans hlt.symm)]
    exact hl
  have hpick : ∀ q ∈ s.tc.records, ((if q.tag ∈ h.map Record.tag then s.ride why q else q).leaderTag == t) = (q.leaderTag == t) := fun q hq => by
    by_cases hin : q.tag ∈ h.map Record.tag
    · rw [if_pos hin, beq_false_of_ne (hout q hq hin).1]
      exact beq_false_of_ne (hout q hq hin).2
    · rw [if_neg hin]
  unfold State.membersOf at hc ⊢
  rw [hv.records]
  dsimp only
  rw [List.filter_map, show s.tc.records.filter ((fun r => r.leaderTag == t) ∘ fun q => if q.tag ∈ h.map Record.tag then s.ride why q else q) = c
    from (List.filter_congr hpick).trans hc]
  refine (List.map_congr_left fun q hq => if_neg fun hin => ?_).trans (List.map_id _)
  have hq' := State.mem_membersOf.mp (show q ∈ s.membersOf t by unfold State.membersOf; rw [hc]; exact hq)
  exact (hout q hq'.1 hin).1 hq'.2

theorem State.Carried.records_append (hv : v.Carried s why h) {w : State} (hw : w.tc = (v.withEach c (v.ride why)).tc) :
    w.tc = { s.tc with records := s.tc.records.map (fun q => if q.tag ∈ (h ++ c).map Record.tag then s.ride why q else q) } := by
  rw [hw, State.ride_congr hv.bpu_params.2]
  unfold State.withEach
  rw [hv.records]
  refine congrArg (fun rs => ({ s.tc with records := rs } : Tc)) (List.map_map.trans (List.map_congr_left fun q _ => ?_))
  simp only [Function.comp, List.map_append, List.mem_append]
  by_cases hin : q.tag ∈ h.map Record.tag
  · simp only [hin, if_true, true_or]
    split <;> rfl
  · simp only [hin, if_false, false_or]

/-- A cluster without routes CARRIED next. -/
theorem State.Carried.free (hv : v.Carried s why h) (hs : s.tableLaw) (hm : v.membersOf t = c) (hfree : ∀ r ∈ c, r.route = none) (hahead : s.endsAhead s.bpu.position c) :
    (v.carryCluster why t).Carried s why (h ++ c) := by
  obtain ⟨hbpu, hparams⟩ := hv.bpu_params
  have hcarry := State.carryCluster_free (State.ownTags (hv.tableLaw hs) t) (by rw [hm]; exact hfree) why (by
    rw [hm, hbpu]
    unfold State.endsAhead State.endPoint
    rw [hparams]
    exact hahead)
  rw [hm] at hcarry
  rw [hcarry]
  have hleave : ∀ o, leavers o (h ++ c) = leavers o h := fun o => by rw [leavers_append, leavers_free hfree, List.append_nil]
  have hsame : ∀ o (x : Outlet), x.relieved o (h ++ c) = x.relieved o h := fun o x => by
    unfold Outlet.relieved
    rw [hleave]
  refine ⟨hv.records_append rfl, fun o => (hv.outlets o).trans (hsame o _).symm, ?_, ?_⟩
  · obtain ⟨b, hb, htau⟩ := hv.emptied
    refine ⟨b, ?_, htau⟩
    unfold Outlet.relievedEmpty
    simp only [hleave, hsame]
    exact hb
  · exact hv.rest_of rfl

/-- A booked cluster CARRIED next. -/
theorem State.Carried.booked (hv : v.Carried s why h) (hs : s.tableLaw) {o : OutletNo} (hb : v.BookedAt o t c) (hahead : s.endsAhead s.bpu.position c) :
    (v.carryCluster why t).Carried s why (h ++ c) := by
  obtain ⟨hbpu, hparams⟩ := hv.bpu_params
  rw [State.carryCluster_booked (hv.tableLaw hs) hb why (by
    rw [hbpu]
    unfold State.endsAhead State.endPoint
    rw [hparams]
    exact hahead)]
  have hother : ∀ j, j ≠ o → ∀ x : Outlet, x.relieved j (h ++ c) = x.relieved j h ∧ (x.relievedEmpty j (h ++ c) ↔ x.relievedEmpty j h) := fun j hj x => by
    have hleave : leavers j (h ++ c) = leavers j h := by rw [leavers_append, leavers_booked hb, if_neg hj, List.append_nil]
    have hsame : x.relieved j (h ++ c) = x.relieved j h := by
      unfold Outlet.relieved
      rw [hleave]
    refine ⟨hsame, ?_⟩
    unfold Outlet.relievedEmpty
    rw [hleave, hsame]
  refine ⟨hv.records_append rfl, fun j => ?_, ?_, ?_⟩
  · refine (State.outlet_setOutlet _ _ _ _).trans ?_
    by_cases hj : o = j
    · subst hj
      rw [if_pos rfl, hv.outlets, Outlet.relieved_append hb]
    · rw [if_neg hj, (hother j (fun e => hj e.symm) _).1]
      exact hv.outlets j
  · obtain ⟨b, hb', htau⟩ := hv.emptied
    refine ⟨b || decide ((v.outlet o).rack = .closing ∧ (v.outlet o).committed ≤ routeUnits c), ?_, ?_⟩
    · rw [Bool.or_eq_true, decide_eq_true_eq, hb', hv.outlets]
      constructor
      · rintro (⟨j, hj⟩ | hnow)
        · by_cases e : j = o
          · subst e
            exact ⟨j, (Outlet.relievedEmpty_append hb _ h).mpr (.inl hj)⟩
          · exact ⟨j, (hother j e _).2.mpr hj⟩
        · exact ⟨o, (Outlet.relievedEmpty_append hb _ h).mpr (.inr hnow)⟩
      · rintro ⟨j, hj⟩
        by_cases e : j = o
        · subst e
          exact ((Outlet.relievedEmpty_append hb _ h).mp hj).imp (fun h' => ⟨j, h'⟩) id
        · exact .inl ⟨j, (hother j e _).2.mp hj⟩
    · show ({ v.tau with latches := v.tau.latches ||| (v.outlet o).emptiedBy (routeUnits c) } : Tau) = _
      rw [htau]
      unfold Outlet.emptiedBy
      by_cases hnow : (v.outlet o).rack = .closing ∧ (v.outlet o).committed ≤ routeUnits c
      · rw [if_pos hnow, decide_eq_true hnow]
        cases b <;> simp [BitVec.or_assoc]
      · rw [if_neg hnow, decide_eq_false hnow]
        cases b <;> simp
  · exact hv.rest_of rfl

end

/-! ### One cluster after another -/

/-- Records of a table that an overlap carries: whole clusters, PENDING or booked, with their end points ahead (R36). -/
structure State.Goers (s : State) (g : List Record) : Prop where
  live : ∀ q ∈ g, q ∈ s.tc.records
  nodup : g.Nodup
  moving : ∀ q ∈ g, q.state ≠ .fired ∧ q.state ≠ .carried
  closed : ∀ q ∈ g, ∀ x ∈ s.tc.records, x.leaderTag = q.leaderTag → x ∈ g
  leader : ∀ q ∈ g, ∃ l ∈ s.membersOf q.leaderTag, l.tag = q.leaderTag
  kind : ∀ q ∈ g, (∀ r ∈ s.membersOf q.leaderTag, r.route = none) ∨ ∃ o, s.BookedAt o q.leaderTag (s.membersOf q.leaderTag)
  ahead : s.endsAhead s.bpu.position g

/-- Records that are each their own cluster go by themselves. -/
theorem State.goers_lone {s : State} {g : List Record} (hlive : ∀ q ∈ g, q ∈ s.tc.records) (hnodup : g.Nodup) (hlone : ∀ q ∈ g, q.leaderTag = q.tag ∧ s.membersOf q.tag = [q])
    (hkind : ∀ q ∈ g, q.state = .pending ∧ q.route = none ∨ (q.state = .routed ∨ q.state = .due) ∧ ∃ route, q.route = some route) (hahead : s.endsAhead s.bpu.position g) : s.Goers g where
  live := hlive
  nodup := hnodup
  moving q hq := by
    obtain ⟨h, -⟩ | ⟨h | h, -⟩ := hkind q hq <;> rw [h] <;> decide
  closed q hq x hx e := by
    have hin : x ∈ s.membersOf q.tag := State.mem_membersOf.mpr ⟨hx, e.trans (hlone q hq).1⟩
    rw [(hlone q hq).2] at hin
    rwa [List.mem_singleton.mp hin]
  leader q hq := by
    rw [(hlone q hq).1, (hlone q hq).2]
    exact ⟨q, List.mem_singleton_self q, rfl⟩
  kind q hq := by
    obtain ⟨hlead, hm⟩ := hlone q hq
    rw [hlead, hm]
    obtain ⟨-, hr⟩ | ⟨hst, route, hr⟩ := hkind q hq
    · exact .inl fun x hx => by rw [List.mem_singleton.mp hx, hr]
    · exact .inr ⟨route.outlet, State.booked_lone hm hst hr⟩
  ahead := hahead

/-- Those of them that have gone: whole clusters too. -/
structure State.Gone (s : State) (g h : List Record) : Prop where
  sub : ∀ q ∈ h, q ∈ g
  nodup : h.Nodup
  closed : ∀ q ∈ h, ∀ x ∈ s.tc.records, x.leaderTag = q.leaderTag → x ∈ h

/-- One tag of the merged set taken: its cluster is CARRIED, unless it is already or its record is FIRED. -/
theorem State.Carried.step {s v : State} {why : CarryReason} {g h : List Record} (hs : s.tableLaw) (hg : s.Goers g) (hv : v.Carried s why h) (hh : s.Gone g h) {t : Tag}
    (ht : ∀ q ∈ s.tc.records, q.tag = t → q ∈ g ∨ q.state = .fired ∨ q.state = .carried) :
    ∃ h', (v.carryOverlap why [t]).Carried s why h' ∧ s.Gone g h' ∧ (∀ q ∈ h, q ∈ h') ∧ ∀ q ∈ g, q.tag = t → q ∈ h' := by
  have hstep : v.carryOverlap why [t] = match v.find t with
    | some r => if r.state = .fired ∨ r.state = .carried then v else v.carryCluster why r.leaderTag
    | none => v := rfl
  have hskip : v.carryOverlap why [t] = v → (∀ q ∈ g, q.tag = t → q ∈ h) →
      ∃ h', (v.carryOverlap why [t]).Carried s why h' ∧ s.Gone g h' ∧ (∀ q ∈ h, q ∈ h') ∧ ∀ q ∈ g, q.tag = t → q ∈ h' := fun e hall => ⟨h, by rw [e]; exact hv, hh, fun _ hq => hq, hall⟩
  have hvrec : v.tc.records = s.tc.records.map (fun q => if q.tag ∈ h.map Record.tag then s.ride why q else q) := by rw [hv.records]
  have hinh : ∀ q ∈ s.tc.records, q.tag ∈ h.map Record.tag ↔ q ∈ h := fun q hq => State.mem_tags_iff hs (fun r hr => hg.live r (hh.sub r hr)) hq
  have hvs := hv.tableLaw hs
  by_cases hlive : ∃ q ∈ s.tc.records, q.tag = t
  · obtain ⟨q, hq, rfl⟩ := hlive
    have honly : ∀ x ∈ g, x.tag = q.tag → x = q := fun x hx e => State.eq_of_tag hs hq (hg.live x hx) e
    by_cases hqh : q ∈ h
    · -- CARRIED already
      have hmem : s.ride why q ∈ v.tc.records := by
        rw [hvrec]
        exact List.mem_map.mpr ⟨q, hq, if_pos ((hinh q hq).mpr hqh)⟩
      have hfind := State.find_tag hvs hmem
      refine hskip ?_ fun x hx e => honly x hx e ▸ hqh
      rw [hstep, show v.find q.tag = some (s.ride why q) from hfind]
      exact if_pos (.inr rfl)
    · have hmem : q ∈ v.tc.records := by
        rw [hvrec]
        exact List.mem_map.mpr ⟨q, hq, if_neg (mt (hinh q hq).mp hqh)⟩
      have hfind := State.find_tag hvs hmem
      rw [hfind] at hstep
      dsimp only at hstep
      by_cases hgone : q.state = .fired ∨ q.state = .carried
      · refine hskip (hstep.trans (if_pos hgone)) fun x hx e => ?_
        rw [honly x hx e] at hx
        exact absurd hgone (not_or.mpr (hg.moving q hx))
      · have hqg : q ∈ g := (ht q hq rfl).resolve_right hgone
        rw [if_neg hgone] at hstep
        obtain ⟨c, hc⟩ : ∃ c, c = s.membersOf q.leaderTag := ⟨_, rfl⟩
        have hcmem : ∀ x, x ∈ c ↔ x ∈ s.tc.records ∧ x.leaderTag = q.leaderTag := fun x => by
          rw [hc]
          exact State.mem_membersOf
        have hcg : ∀ x ∈ c, x ∈ g := fun x hx => hg.closed q hqg x ((hcmem x).mp hx).1 ((hcmem x).mp hx).2
        have hdisj : ∀ x ∈ h, x ∉ c := fun x hx hxc => hqh (hh.closed x hx q hq ((hcmem x).mp hxc).2.symm)
        have hm : v.membersOf q.leaderTag = c := hv.members hs hc.symm (hc ▸ hg.leader q hqg) fun x hx => ⟨hg.live x (hh.sub x hx), hdisj x hx⟩
        have hahead : s.endsAhead s.bpu.position c := fun x hx => hg.ahead x (hcg x hx)
        have hcarried : (v.carryCluster why q.leaderTag).Carried s why (h ++ c) := by
          obtain hfree | ⟨o, hb⟩ := hg.kind q hqg
          · exact hv.free hs hm (hc ▸ hfree) hahead
          · rw [← hc] at hb
            exact hv.booked hs ⟨hm, hb.nonempty, hb.routed, hb.waits⟩ hahead
        refine ⟨h ++ c, hstep ▸ hcarried, ⟨fun x hx => ?_, ?_, fun x hx y hy e => ?_⟩, fun x hx => List.mem_append_left _ hx, fun x hx e => ?_⟩
        · exact (List.mem_append.mp hx).elim (hh.sub x) (hcg x)
        · refine List.Nodup.append hh.nodup ?_ fun x hx hxc => hdisj x hx hxc
          rw [hc]
          exact (List.Nodup.of_map _ hs).filter _
        · obtain hxh | hxc := List.mem_append.mp hx
          · exact List.mem_append_left _ (hh.closed x hxh y hy e)
          · exact List.mem_append_right _ ((hcmem y).mpr ⟨hy, e.trans ((hcmem x).mp hxc).2⟩)
        · rw [honly x hx e]
          exact List.mem_append_right _ ((hcmem q).mpr ⟨hq, rfl⟩)
  · refine hskip ?_ fun x hx e => absurd ⟨x, hg.live x hx, e⟩ hlive
    have hnone : v.find t = none := State.find_none_iff.mpr fun r hr e => by
      rw [hvrec] at hr
      obtain ⟨q, hq, rfl⟩ := List.mem_map.mp hr
      have htag : (if q.tag ∈ h.map Record.tag then s.ride why q else q).tag = q.tag := by split <;> rfl
      exact hlive ⟨q, hq, htag.symm.trans e⟩
    rw [hstep, hnone]

/-- The tags of the merged set taken one after another (R36). -/
theorem State.Carried.all {s : State} {why : CarryReason} {g : List Record} (hs : s.tableLaw) (hg : s.Goers g) :
    ∀ {ts : List Tag} {v : State} {h : List Record}, v.Carried s why h → s.Gone g h → (∀ t ∈ ts, ∀ q ∈ s.tc.records, q.tag = t → q ∈ g ∨ q.state = .fired ∨ q.state = .carried) →
      ∃ h', (v.carryOverlap why ts).Carried s why h' ∧ s.Gone g h' ∧ (∀ q ∈ h, q ∈ h') ∧ ∀ q ∈ g, q.tag ∈ ts → q ∈ h'
  | [], v, h, hv, hh, _ => ⟨h, hv, hh, fun _ hq => hq, fun _ _ hin => absurd hin List.not_mem_nil⟩
  | t :: rest, v, h, hv, hh, hts => by
    obtain ⟨h₁, hv₁, hh₁, hsub, hin⟩ := hv.step hs hg hh (hts t List.mem_cons_self)
    obtain ⟨h', hv', hh', hsub', hin'⟩ := State.Carried.all hs hg hv₁ hh₁ fun t' ht' => hts t' (List.mem_cons_of_mem t ht')
    refine ⟨h', hv', hh', fun q hq => hsub' q (hsub q hq), fun q hq ht => ?_⟩
    obtain rfl | ht := List.mem_cons.mp ht
    · exact hsub' q (hin q hq rfl)
    · exact hin' q hq ht

/-- What is CARRIED does not depend on the order. -/
theorem State.Carried.perm {v s : State} {why : CarryReason} {h g : List Record} (hv : v.Carried s why h) (hp : h.Perm g) : v.Carried s why g := by
  have hleave : ∀ o, (leavers o h).Perm (leavers o g) := fun o => hp.filter _
  have hnil : ∀ o, leavers o h = [] ↔ leavers o g = [] := fun o => ⟨fun e => (e ▸ hleave o).nil_eq.symm, fun e => (e ▸ hleave o).eq_nil⟩
  have hsame : ∀ o (x : Outlet), x.relieved o h = x.relieved o g := fun o x => by
    unfold Outlet.relieved
    simp only [hnil o, ((hleave o).map fun q => q.unitsAt o).sum_eq, (hleave o).mem_iff]
  refine ⟨?_, fun o => (hv.outlets o).trans (hsame o _), ?_, hv.rest⟩
  · rw [hv.records]
    refine congrArg (fun rs => ({ s.tc with records := rs } : Tc)) (List.map_congr_left fun q _ => ?_)
    simp only [(hp.map Record.tag).mem_iff]
  · obtain ⟨b, hb, htau⟩ := hv.emptied
    refine ⟨b, ?_, htau⟩
    rw [hb]
    unfold Outlet.relievedEmpty
    simp only [ne_eq, hnil, hsame]

/-- Where none of the records leaves an outlet, the records alone change. -/
theorem State.Carried.of_none_leave {v s : State} {why : CarryReason} {h : List Record} (hv : v.Carried s why h) (hnone : ∀ o, leavers o h = []) :
    v = s.setRecords (s.tc.records.map (fun q => if q.tag ∈ h.map Record.tag then s.ride why q else q)) := by
  have houtlets : v.outlets = s.outlets := vget_ext fun o => (hv.outlets o).trans (if_pos (hnone o))
  obtain ⟨b, hb, htau⟩ := hv.emptied
  have hfalse : b = false := by
    rw [Bool.eq_false_iff, ne_eq, hb]
    rintro ⟨o, hne, -⟩
    exact hne (hnone o)
  refine hv.rest.trans ?_
  rw [hv.records, houtlets, htau, hfalse]
  exact congrArg (fun l : BitVec 8 => ({ s with
    tc := { s.tc with records := s.tc.records.map (fun q => if q.tag ∈ h.map Record.tag then s.ride why q else q) }
    tau := { s.tau with latches := l } } : State)) BitVec.or_zero

/-- A PENDING record leaves no outlet. -/
theorem leavers_pending {h : List Record} (hp : ∀ q ∈ h, q.state = .pending) (o : OutletNo) : leavers o h = [] := List.filter_eq_nil_iff.mpr fun q hq => by
  rw [decide_eq_true_eq]
  rintro (⟨e, -⟩ | ⟨e, -⟩) <;> rw [hp q hq] at e <;> cases e

/-- A merged set CARRIED (R36). -/
theorem State.carryOverlap_carried {s : State} {why : CarryReason} {g : List Record} (hs : s.tableLaw) (hg : s.Goers g) {ts : List Tag} (hall : ∀ q ∈ g, q.tag ∈ ts)
    (hts : ∀ t ∈ ts, ∀ q ∈ s.tc.records, q.tag = t → q ∈ g ∨ q.state = .fired ∨ q.state = .carried) : (s.carryOverlap why ts).Carried s why g := by
  obtain ⟨h, hv, hh, -, hin⟩ := State.Carried.all hs hg (.refl s why) ⟨by simp, List.nodup_nil, by simp⟩ hts
  exact hv.perm ((List.perm_ext_iff_of_nodup hh.nodup hg.nodup).mpr fun q => ⟨hh.sub q, fun hq => hin q hq (hall q hq)⟩)

/-- A new record whose merged set is not one small PENDING cluster is CARRIED with it (R36). -/
theorem State.Enters.carries {s : State} {r : Record} {list : List Record} (h : s.Enters r list) {m : List Record} (hm : s.mergedSet r = m) (hne : m ≠ [])
    (hnot : (∀ q ∈ m, q.state = .pending) → 8 ≤ m.length) {why : CarryReason} (hlate : (∃ q ∈ m, q.state ≠ .pending) → why = .overlapLate)
    (hlimit : (∀ q ∈ m, q.state = .pending) → why = .clusterLimit) {g : List Record} (hg : (s.setRecords list).Goers g) (hgm : ∀ q ∈ g, q ∈ r :: m)
    (hmg : ∀ q ∈ r :: m, q ∈ g ∨ q.state = .fired ∨ q.state = .carried) : (s.enterRecord r).Carried (s.setRecords list) why g := by
  obtain ⟨hperm, -⟩ := h.merged
  rw [hm] at hperm
  have hall : ¬(m.all (fun x => x.state == .pending) && decide (m.length < 8)) = true := fun e => by
    rw [Bool.and_eq_true, List.all_eq_true, decide_eq_true_eq] at e
    exact absurd (hnot fun q hq => beq_iff_eq.mp (e.1 q hq)) (by omega)
  have hreason : (if m.any (fun x => x.state != .pending) = true then CarryReason.overlapLate else .clusterLimit) = why := by
    by_cases hp : ∃ q ∈ m, q.state ≠ .pending
    · rw [hlate hp, if_pos]
      obtain ⟨q, hq, hst⟩ := hp
      exact List.any_eq_true.mpr ⟨q, hq, bne_iff_ne.mpr hst⟩
    · rw [hlimit fun q hq => not_not.mp fun e => hp ⟨q, hq, e⟩, if_neg]
      intro e
      obtain ⟨q, hq, hst⟩ := List.any_eq_true.mp e
      exact hp ⟨q, hq, bne_iff_ne.mp hst⟩
  have henter : s.enterRecord r = (s.setRecords list).carryOverlap why ((list.filter (fun x => x.tag == r.tag || m.any (fun y => y.tag == x.tag))).map Record.tag) := by
    unfold State.enterRecord
    dsimp only
    rw [hm, h.list, if_neg (by simpa using hne), if_neg hall, hreason]
    rfl
  rw [henter]
  refine State.carryOverlap_carried h.tableLaw hg (fun q hq => ?_) fun t ht q hq e => ?_
  · exact (hperm.map Record.tag).mem_iff.mpr (List.mem_map_of_mem (hgm q hq))
  · obtain ⟨x, hx, hxt⟩ := List.mem_map.mp ((hperm.map Record.tag).mem_iff.mp ht)
    have hxl : x ∈ list := List.mem_of_mem_filter (hperm.mem_iff.mpr hx)
    rw [h.eq_of_tag hxl hq (e.trans hxt.symm)]
    exact hmg x hx

/-! ### A merged set in a table whose books agree -/

theorem filter_insertByStamp {p : Record → Bool} {r : Record} (hr : p r = false) (l : List Record) : (insertByStamp r l).filter p = l.filter p := by
  induction l with
  | nil => exact List.filter_cons_of_neg (by rw [hr]; exact Bool.false_ne_true)
  | cons x xs ih =>
    unfold insertByStamp
    split
    · rw [List.filter_cons, List.filter_cons, ih]
    · exact List.filter_cons_of_neg (by rw [hr]; exact Bool.false_ne_true)

/-- The new record and what is still undecided or waiting of a merged set. -/
def goers (r : Record) (m : List Record) : List Record := r :: m.filter (fun q => q.state != .fired && q.state != .carried)

theorem mem_goers {r q : Record} {m : List Record} : q ∈ goers r m ↔ q = r ∨ q ∈ m ∧ q.state ≠ .fired ∧ q.state ≠ .carried := by
  simp [goers]

section
variable {s : State} {r : Record} {list m : List Record}

/-- No live record has a new record for its leader. -/
theorem State.Enters.leader_ne (h : s.Enters r list) (hb : s.Clustered) {q : Record} (hq : q ∈ s.tc.records) : q.leaderTag ≠ r.tag := fun e => by
  obtain ⟨l, hl, hlt, -⟩ := hb.leader q hq
  exact tag_ne_of_free h.free l hl (hlt.trans e)

theorem State.Enters.membersOf (h : s.Enters r list) (hc : r.cluster = none) {t : Tag} (ht : t ≠ r.tag) : (s.setRecords list).membersOf t = s.membersOf t := by
  unfold State.membersOf
  rw [show (s.setRecords list).tc.records = insertByStamp r s.tc.records from h.list.symm]
  refine filter_insertByStamp (p := fun q => q.leaderTag == t) ?_ _
  rw [Record.leaderTag_of_leads (Record.leads_of_none hc)]
  exact beq_false_of_ne ht.symm

theorem State.Enters.members_self (h : s.Enters r list) (hb : s.Clustered) (hc : r.cluster = none) : (s.setRecords list).membersOf r.tag = [r] :=
  State.membersOf_alone h.tableLaw (h.mem.mpr (.inl rfl)) hc fun q hq hne =>
    h.leader_ne hb ((h.mem.mp hq).resolve_left fun e => hne (by rw [e]))

/-- What goes of a merged set goes in whole clusters, PENDING or booked (R35, R36). -/
theorem State.Enters.goers (h : s.Enters r list) (hb : s.booksLaw) (hc : r.cluster = none) (hroute : r.route = none) (hst : r.state = .pending) (hm : s.mergedSet r = m)
    (hahead : s.endsAhead s.bpu.position (r :: m)) : (s.setRecords list).Goers (goers r m) := by
  have hlead : r.leaderTag = r.tag := Record.leaderTag_of_leads (Record.leads_of_none hc)
  have hmr : ∀ q ∈ m, q ∈ s.tc.records := fun q hq => (State.mem_mergedSet.mp (hm ▸ hq)).1
  have hself := h.members_self hb.clustered hc
  have hother : ∀ q ∈ m, (s.setRecords list).membersOf q.leaderTag = s.membersOf q.leaderTag := fun q hq => h.membersOf hc (h.leader_ne hb.clustered (hmr q hq))
  refine ⟨fun q hq => ?_, ?_, fun q hq => ?_, fun q hq x hx e => ?_, fun q hq => ?_, fun q hq => ?_, fun q hq => ?_⟩
  · exact h.mem.mpr ((mem_goers.mp hq).imp id fun e => hmr q e.1)
  · refine List.nodup_cons.mpr ⟨fun hr => h.not_mem (hmr r (List.mem_of_mem_filter hr)), List.Nodup.filter _ ?_⟩
    rw [← hm]
    exact (List.Nodup.of_map _ h.table).filter _
  · obtain rfl | ⟨-, hne⟩ := mem_goers.mp hq
    · rw [hst]
      decide
    · exact hne
  · obtain rfl | ⟨hqm, hne⟩ := mem_goers.mp hq
    · refine mem_goers.mpr (.inl ((h.mem.mp hx).resolve_right fun hxs => ?_))
      exact h.leader_ne hb.clustered hxs (e.trans hlead)
    · obtain rfl | hxs := h.mem.mp hx
      · exact absurd (e.symm.trans hlead) (h.leader_ne hb.clustered (hmr q hqm))
      · refine mem_goers.mpr (.inr ⟨?_, ?_⟩)
        · rw [← hm] at hqm ⊢
          obtain ⟨-, y, hy, hapart, hyl⟩ := State.mem_mergedSet.mp hqm
          exact State.mem_mergedSet.mpr ⟨hxs, y, hy, hapart, hyl.trans e.symm⟩
        · rw [(hb.clustered.same (hmr q hqm) hxs e).1]
          exact hne
  · obtain rfl | ⟨hqm, -⟩ := mem_goers.mp hq
    · rw [hlead, hself]
      exact ⟨q, List.mem_singleton_self q, rfl⟩
    · obtain ⟨l, hl, hlt, hleads, -⟩ := hb.clustered.leader q (hmr q hqm)
      rw [hother q hqm]
      exact ⟨l, State.mem_membersOf.mpr ⟨hl, (Record.leaderTag_of_leads hleads).trans hlt⟩, hlt⟩
  · obtain rfl | ⟨hqm, hfired, hcarried⟩ := mem_goers.mp hq
    · rw [hlead, hself]
      exact .inl fun x hx => by rw [List.mem_singleton.mp hx, hroute]
    · rw [hother q hqm]
      cases hstate : q.state with
      | pending => exact .inl (hb.free (hmr q hqm) hstate)
      | fired => exact absurd hstate hfired
      | carried => exact absurd hstate hcarried
      | routed =>
        obtain ⟨route, hr⟩ := Option.ne_none_iff_exists'.mp ((hb.routes q (hmr q hqm)).mpr (.inl hstate))
        obtain ⟨-, hne, hrouted, hwaits⟩ := hb.clustered.booked (hmr q hqm) (.inl hstate) hr
        exact .inr ⟨route.outlet, hother q hqm, hne, hrouted, hwaits⟩
      | due =>
        obtain ⟨route, hr⟩ := Option.ne_none_iff_exists'.mp ((hb.routes q (hmr q hqm)).mpr (.inr (.inl hstate)))
        obtain ⟨-, hne, hrouted, hwaits⟩ := hb.clustered.booked (hmr q hqm) (.inr hstate) hr
        exact .inr ⟨route.outlet, hother q hqm, hne, hrouted, hwaits⟩
  · exact hahead q ((mem_goers.mp hq).elim (fun e => e ▸ List.mem_cons_self) fun e => List.mem_cons_of_mem r e.1)

end

end Sys2Proof.Machine
end

section
/-! PROOFS. A notice that overlaps live records: one cluster with them, or all CARRIED (spec/02, clusters). -/

namespace Sys2Proof.Machine

/-- A notice that passes the checks enters its record in its place. -/
theorem State.PassesChecks.enters {s : State} {n : Byte} {stamp st : Pos} {len : BitVec 16} {clamped : Bool} {ln : Nat} {slot : Slot} (h : s.PassesChecks n stamp len clamped st ln slot)
    (hs : s.tableLaw) {before after : List Record} (hrec : s.tc.records = before ++ after) (hplace : placedAt st before after) (c : ClassNo) (k : KeyNo) :
    (s.numbered n).Enters (freshRecord slot (vget s.tc.gens slot) n st ln c k clamped) (before ++ freshRecord slot (vget s.tc.gens slot) n st ln c k clamped :: after) where
  table := hs
  free := h.free
  list := by
    rw [show (s.numbered n).tc.records = before ++ after from hrec]
    exact insertByStamp_placed hplace

/-- A sublist of a list without repetitions is what its members pick. -/
theorem sublist_eq_filter {m l : List Record} (hsub : m.Sublist l) (hn : l.Nodup) {p : Record → Bool} (h : ∀ q ∈ l, q ∈ m ↔ p q = true) : l.filter p = m := by
  have hm : m.filter p = m := List.filter_eq_self.mpr fun q hq => (h q (hsub.subset hq)).mp hq
  have hs : m.Sublist (l.filter p) := hm ▸ hsub.filter p
  have hperm : m.Perm (l.filter p) := (List.perm_ext_iff_of_nodup (hn.sublist hsub) (hn.filter p)).mpr fun q => by
    rw [List.mem_filter]
    exact ⟨fun hq => ⟨hsub.subset hq, (h q (hsub.subset hq)).mp hq⟩, fun hq => (h q hq.1).mpr hq.2⟩
  exact (hs.eq_of_length hperm.length_eq).symm

/-- The books are of the records and the outlets alone. -/
theorem State.booksLaw.of_eq {s t : State} (hs : s.booksLaw) (hr : t.tc.records = s.tc.records) (ho : t.outlets = s.outlets) : t.booksLaw := by
  have hout : ∀ o, t.outlet o = s.outlet o := fun o => by rw [State.outlet, ho]; rfl
  have hmembers : ∀ x, t.membersOf x = s.membersOf x := fun x => by rw [State.membersOf, hr]; rfl
  have hunits : ∀ o p, t.unitsAt o p = s.unitsAt o p := fun o p => by rw [State.unitsAt, hr]; rfl
  obtain ⟨hslots, hroutes, hcarries, hmem, hleaders, hcommitted, hfired, hdue⟩ := hs
  refine ⟨by rw [State.tableLaw, hr]; exact hslots, hr ▸ hroutes, hr ▸ hcarries, hr ▸ hmem, fun r hr' n hn => ?_, fun o => ?_, fun o => ?_, fun o => ?_⟩
  · rw [hmembers]
    exact hleaders r (hr ▸ hr') n hn
  · rw [hout, hunits]
    exact hcommitted o
  · have h := hfired o
    simp only [hout, hr, hunits]
    exact h
  · have h := hdue o
    simp only [hout, hr, hunits]
    exact h

/-! ### The outlets of a merged set -/

theorem leavers_goers {r : Record} (hst : r.state = .pending) (o : OutletNo) (m : List Record) : leavers o (goers r m) = m.filter (fun q => decide (q.leavesAt o)) := by
  have hr : ¬decide (r.leavesAt o) = true := by
    rw [decide_eq_true_eq]
    rintro (⟨h, -⟩ | ⟨h, -⟩) <;> rw [hst] at h <;> cases h
  unfold leavers goers
  rw [List.filter_cons_of_neg (p := fun q : Record => decide (q.leavesAt o)) hr, List.filter_filter]
  refine List.filter_congr fun q _ => ?_
  by_cases hl : q.leavesAt o
  · rw [decide_eq_true hl]
    obtain ⟨h, -⟩ | ⟨h, -⟩ := hl <;> rw [h] <;> rfl
  · rw [decide_eq_false hl]
    rfl

/-- An outlet relieved of a merged set, where the requests are of whole DUE clusters (R118). -/
theorem State.booksLaw.relieved {s : State} (hs : s.booksLaw) {m : List Record} (hm : ∀ q ∈ m, q ∈ s.tc.records) {r : Record} (hst : r.state = .pending) (o : OutletNo) :
    (s.outlet o).relieved o (goers r m) = (s.outlet o).afterOverlap o m := by
  have hrequest : (∃ q ∈ m.filter (fun q => decide (q.leavesAt o)), q.leaderTag ∈ (s.outlet o).requestMembers) ↔ ∃ q ∈ m, q.tag ∈ (s.outlet o).requestMembers := by
    have hiff : ∀ q ∈ m, q.leaderTag ∈ (s.outlet o).requestMembers ↔ q.tag ∈ (s.outlet o).requestMembers := fun q hq => by
      obtain ⟨l, hl, hlt, hleads, -⟩ := hs.clustered.leader q (hm q hq)
      rw [← hlt]
      exact hs.request_whole (hm q hq) hl ((Record.leaderTag_of_leads hleads).trans hlt) o
    constructor
    · rintro ⟨q, hq, hin⟩
      exact ⟨q, List.mem_of_mem_filter hq, (hiff q (List.mem_of_mem_filter hq)).mp hin⟩
    · rintro ⟨q, hq, hin⟩
      obtain ⟨x, hx, hxt, hat⟩ := hs.requestMembers_due hin
      rw [State.eq_of_tag hs.slots (hm q hq) hx hxt] at hat
      exact ⟨q, List.mem_filter.mpr ⟨hq, decide_eq_true (.inr hat)⟩, (hiff q hq).mpr hin⟩
  have hlatest : ∀ l : Latest, (∃ q ∈ m.filter (fun q => decide (q.leavesAt o)), q.leaderTag = l.owner) ↔ ∃ q ∈ m, q.leavesAt o ∧ q.leaderTag = l.owner := fun l => by
    simp only [List.mem_filter, decide_eq_true_eq, and_assoc]
  have hnil : m.filter (fun q => decide (q.leavesAt o)) = [] ↔ ¬∃ q ∈ m, q.leavesAt o := by
    simp only [List.filter_eq_nil_iff, decide_eq_true_eq, not_exists, not_and]
  unfold Outlet.relieved Outlet.afterOverlap
  rw [leavers_goers hst]
  by_cases hany : ∃ q ∈ m, q.leavesAt o
  · rw [if_neg fun e => hnil.mp e hany, if_pos hany]
    simp only [hlatest, hrequest]
  · rw [if_pos (hnil.mpr hany), if_neg hany]

/-- Settles O33: linked, or CARRIED as a merged set. -/
theorem noticeLinksOrCarriesTheMergedSet : Obligations.NoticeLinksOrCarriesTheMergedSet := by
  intro s u n stamp st len c k ln clamped slot before after m list new hpass hrec hplace hs hnew hlist hsub hmiff hne
  have henters := hpass.enters hs.slots hrec hplace c k
  rw [← hnew, ← hlist] at henters
  have hmr : ∀ q ∈ m, q ∈ s.tc.records := fun q hq => hsub.subset hq
  have hst : new.state = .pending := by rw [hnew]; rfl
  have hroute : new.route = none := by rw [hnew]; rfl
  have hcl : new.cluster = none := by rw [hnew]; rfl
  have hbooks : (s.numbered n).booksLaw := hs.of_eq rfl rfl
  have hm : (s.numbered n).mergedSet new = m := by
    have hpick : ∀ q ∈ s.tc.records, q ∈ m ↔ (((s.tc.records.filter (fun x => overlaps s.params.clearance x new)).any (fun h => h.leaderTag == q.leaderTag)) = true) := fun q hq => by
      rw [hmiff q hq, List.any_eq_true]
      simp only [List.mem_filter, overlaps_iff, beq_iff_eq, and_assoc, hnew]
      rfl
    exact sublist_eq_filter hsub (List.Nodup.of_map _ hs.slots) hpick
  rw [hpass.exec c k, ← hnew]
  refine ⟨fun hdecided hahead => ?_, fun hpending hlen hahead => ?_, fun hpending hlen pre post lead lead' hsplit hlead hpre hlead' hu => ?_⟩
  · have hv := henters.carries hm hne (fun h => by obtain ⟨q, hq, hq'⟩ := hdecided; exact absurd (h q hq) hq') (why := .overlapLate) (fun _ => rfl)
      (fun h => by obtain ⟨q, hq, hq'⟩ := hdecided; exact absurd (h q hq) hq') (henters.goers hbooks hcl hroute hst hm hahead)
      (fun q hq => List.mem_cons.mpr ((mem_goers.mp hq).imp_right And.left)) (fun q hq => by
        by_cases hgone : q.state = .fired ∨ q.state = .carried
        · exact .inr hgone
        · exact .inl (mem_goers.mpr ((List.mem_cons.mp hq).imp_right fun h => ⟨h, not_or.mp hgone⟩)))
    generalize (s.numbered n).enterRecord new = t at hv
    have hout : ∀ o, t.outlet o = (s.outlet o).afterOverlap o m := fun o => (hv.outlets o).trans (hs.relieved hmr hst o)
    refine ⟨t, rfl, hout, ?_, ?_⟩
    · obtain ⟨b, hb, htau⟩ := hv.emptied
      have hiff : (∃ o, (∃ q ∈ m, q.leavesAt o) ∧ (s.outlet o).rack = .closing ∧ (t.outlet o).committed = 0) ↔ b = true := by
        rw [hb]
        refine exists_congr fun o => and_congr ?_ (and_congr_right fun _ => ?_)
        · rw [leavers_goers hst, ne_eq, List.filter_eq_nil_iff]
          simp only [decide_eq_true_eq, not_forall, not_not, exists_prop]
        · rw [← hv.outlets]
      rw [htau]
      simp only [hiff]
      rfl
    · refine hv.rest.trans ?_
      obtain ⟨b, hb, htau⟩ := hv.emptied
      rw [hv.records, htau]
      have hrecords : list.map (fun q => if q.tag ∈ (goers new m).map Record.tag then s.ride .overlapLate q else q)
          = list.map (fun q => if q.tag = new.tag ∨ q.tag ∈ m.map Record.tag ∧ q.state ≠ .fired ∧ q.state ≠ .carried then s.ride .overlapLate q else q) := by
        refine List.map_congr_left fun q hq => ?_
        have hiff : q.tag ∈ (goers new m).map Record.tag ↔ q.tag = new.tag ∨ q.tag ∈ m.map Record.tag ∧ q.state ≠ .fired ∧ q.state ≠ .carried := by
          have hin : ∀ l : List Record, (∀ x ∈ l, x ∈ list) → (q.tag ∈ l.map Record.tag ↔ q ∈ l) := fun l hl => State.mem_tags_iff (s := (s.numbered n).setRecords list) henters.tableLaw hl hq
          have hml : ∀ x ∈ m, x ∈ list := fun x hx => henters.mem.mpr (.inr (hmr x hx))
          rw [hin _ fun x hx => (mem_goers.mp hx).elim (fun e => henters.mem.mpr (.inl e)) fun e => hml x e.1, hin m hml, mem_goers]
          exact or_congr_left ⟨fun e => by rw [e], fun e => henters.eq_of_tag (henters.mem.mpr (.inl rfl)) hq e⟩
        simp only [hiff]
      exact congrArg (fun rs : List Record => ({ s.numbered n with
        tc := { s.tc with records := rs }
        outlets := t.outlets
        tau := { (s.numbered n).tau with latches := (s.numbered n).tau.latches ||| if b = true then 0x01 else 0 } } : State)) hrecords
  · have hall : goers new m = new :: m := by
      refine congrArg (new :: ·) (List.filter_eq_self.mpr fun q hq => ?_)
      rw [hpending q hq]
      rfl
    have hv := henters.carries hm hne (fun _ => hlen) (why := .clusterLimit) (fun ⟨q, hq, hq'⟩ => absurd (hpending q hq) hq') (fun _ => rfl)
      (henters.goers hbooks hcl hroute hst hm hahead) (fun q hq => by rwa [hall] at hq) (fun q hq => .inl (by rwa [hall]))
    rw [hall] at hv
    rw [hv.of_none_leave (leavers_pending fun q hq => (List.mem_cons.mp hq).elim (fun e => e ▸ hst) (hpending q))]
    rfl
  · have hlinks := henters.links hm hne hpending hlen hsplit hlead hpre
    have hleadl : lead ∈ list := hsplit ▸ List.mem_append_right _ List.mem_cons_self
    have hul : u = (s.numbered n).setRecords (list.map (fun q => if q.tag ∈ (new :: m).map Record.tag then (s.numbered n).linked lead.tag (m.length + 1) q else q)) := by
      rw [hu]
      refine congrArg (s.numbered n).setRecords (List.map_congr_left fun q hq => ?_)
      by_cases he : q.tag = lead.tag
      · rw [if_pos he, he, if_pos (List.mem_map_of_mem hlead), State.linked, if_pos he, henters.eq_of_tag hleadl hq he, hlead']
        rfl
      · rw [if_neg he, State.linked, if_neg he]
    have htag : lead'.tag = lead.tag := by
      rw [hlead']
      rfl
    have hleadst : lead.state = .pending := (List.mem_cons.mp hlead).elim (fun e => e ▸ hst) (hpending lead)
    have hus : u.tableLaw := by
      refine State.tableLaw_of_tags ?_ henters.tableLaw
      rw [hul]
      refine List.map_map.trans (List.map_congr_left fun q _ => ?_)
      simp only [Function.comp, State.linked]
      split
      · split <;> rfl
      · rfl
    have hlu : lead' ∈ u.tc.records := by
      rw [hu]
      exact List.mem_map.mpr ⟨lead, hleadl, if_pos rfl⟩
    have hfind := State.find_tag hus hlu
    have hway : lead'.waypoint = some (plus lead.stamp s.params.q) := by rw [hlead']
    have hpos : u.bpu.position = s.bpu.position := by
      rw [hu]
      rfl
    rw [hlinks, ← hul, ← htag]
    refine ⟨fun hahead => by rw [State.decideIfReached_ahead hfind hway (by rw [hpos]; exact hahead)], fun hreached hends => ⟨_, rfl, ?_⟩⟩
    rw [State.decideIfReached_reached hfind hway (by rw [hlead']; exact hleadst) (by rw [hpos]; exact hreached)]
    -- the cluster's members are the linked records
    have hmembers : ∀ q' ∈ u.membersOf lead'.tag, ∃ q ∈ new :: m, q' = (s.numbered n).linked lead.tag (m.length + 1) q := fun q' hq' => by
      obtain ⟨hq', hq't⟩ := State.mem_membersOf.mp hq'
      rw [hul] at hq'
      obtain ⟨q, hq, rfl⟩ := List.mem_map.mp hq'
      by_cases hin : q.tag ∈ (new :: m).map Record.tag
      · obtain ⟨x, hx, hxt⟩ := List.mem_map.mp hin
        have hxl : x ∈ list := (List.mem_cons.mp hx).elim (fun e => henters.mem.mpr (.inl e)) fun e => henters.mem.mpr (.inr (hmr x e))
        rw [if_pos hin]
        exact ⟨q, henters.eq_of_tag hxl hq hxt.symm ▸ hx, rfl⟩
      · rw [if_neg hin, htag] at hq't
        have hqs : q ∈ s.tc.records := (henters.mem.mp hq).resolve_left fun e => hin (e ▸ List.mem_map_of_mem List.mem_cons_self)
        obtain ⟨l, hl, hlt, hleads, -⟩ := hs.clustered.leader q hqs
        have hll : l = lead := henters.eq_of_tag hleadl (henters.mem.mpr (.inr hl)) (hlt.trans hq't)
        subst hll
        have hlm : l ∈ m := (List.mem_cons.mp hlead).resolve_left fun e => henters.not_mem (e ▸ hl)
        obtain ⟨y, hy, hapart, hyl⟩ := (hmiff l hl).mp hlm
        have hqm : q ∈ m := (hmiff q hqs).mpr ⟨y, hy, hapart, hyl.trans ((Record.leaderTag_of_leads hleads).trans hlt)⟩
        exact absurd (List.mem_map_of_mem (List.mem_cons_of_mem new hqm)) hin
    have hlinked : ∀ q, ((s.numbered n).linked lead.tag (m.length + 1) q).route = q.route ∧ s.endPoint ((s.numbered n).linked lead.tag (m.length + 1) q) = s.endPoint q := fun q => by
      unfold State.linked
      split <;> exact ⟨rfl, rfl⟩
    refine State.decisionWalk_decidesTo hus hlu (fun q' hq' => ?_) fun q' hq' => ?_
    · obtain ⟨q, hq, rfl⟩ := hmembers q' hq'
      rw [(hlinked q).1]
      obtain rfl | hqm := List.mem_cons.mp hq
      · exact hroute
      · exact hs.free (hmr q hqm) (hpending q hqm) q (State.mem_membersOf.mpr ⟨hmr q hqm, rfl⟩)
    · obtain ⟨q, hq, rfl⟩ := hmembers q' hq'
      rw [hpos, show u.endPoint = s.endPoint by rw [hu]; rfl, (hlinked q).2]
      exact hends q hq

/-! ### A notice that overlaps one lone record -/

/-- The new record's place and one live record replaced. -/
theorem map_pair {before after : List Record} {new x new' x' : Record} {f : Record → Record} (hnew : f new = new') (hx : f x = x') (htag : new'.tag ≠ x.tag)
    (hlive : ∀ q ∈ before ++ after, q.tag = x.tag → q = x) (hother : ∀ q ∈ before ++ after, q.tag ≠ x.tag → f q = q) :
    (before ++ new :: after).map f = (before ++ new' :: after).map (fun q => if q.tag = x.tag then x' else q) := by
  have hside : ∀ l : List Record, (∀ q ∈ l, q ∈ before ++ after) → l.map f = l.map (fun q => if q.tag = x.tag then x' else q) := fun l hl => List.map_congr_left fun q hq => by
    by_cases e : q.tag = x.tag
    · rw [if_pos e, hlive q (hl q hq) e, hx]
    · rw [if_neg e, hother q (hl q hq) e]
  rw [List.map_append, List.map_append, List.map_cons, List.map_cons, hside before fun q hq => List.mem_append_left _ hq, hside after fun q hq => List.mem_append_right _ hq, hnew, if_neg htag]

/-- The new record's place alone. -/
theorem map_new {before after : List Record} {new new' : Record} {f : Record → Record} (hnew : f new = new') (hother : ∀ q ∈ before ++ after, f q = q) :
    (before ++ new :: after).map f = before ++ new' :: after := by
  have hside : ∀ l : List Record, (∀ q ∈ l, q ∈ before ++ after) → l.map f = l := fun l hl => (List.map_congr_left fun q hq => hother q (hl q hq)).trans (List.map_id _)
  rw [List.map_append, List.map_cons, hside before fun q hq => List.mem_append_left _ hq, hside after fun q hq => List.mem_append_right _ hq, hnew]

/-- Settles O32: linked with the one record, or CARRIED beside or with it. -/
theorem overlappingNoticeJoinsOrCarries : Obligations.OverlappingNoticeJoinsOrCarries := by
  intro s n stamp st len c k ln clamped slot before after x new u hpass hrec hplace hs hx hxc hoverlap hapart hnew hlead hu
  have henters := hpass.enters hs hrec hplace c k
  rw [← hnew] at henters
  have hst : new.state = .pending := by rw [hnew]; rfl
  have hroute : new.route = none := by rw [hnew]; rfl
  have hcl : new.cluster = none := by rw [hnew]; rfl
  have hway : new.waypoint = none := by rw [hnew]; rfl
  have hstamp : new.stamp = st := by rw [hnew]; rfl
  have hnewlead : new.leaderTag = new.tag := Record.leaderTag_of_leads (Record.leads_of_none hcl)
  have hxlead : x.leaderTag = x.tag := Record.leaderTag_of_leads (Record.leads_of_none hxc)
  have htag : ∀ q ∈ s.tc.records, q.tag ≠ new.tag := tag_ne_of_free henters.free
  have hlive : ∀ q ∈ before ++ after, q ∈ s.tc.records := fun q hq => hrec ▸ hq
  have hsame : ∀ q ∈ before ++ after, q.tag = x.tag → q = x := fun q hq e => State.eq_of_tag hs hx (hlive q hq) e
  have hm : (s.numbered n).mergedSet new = [x] := by
    refine sublist_eq_filter (List.singleton_sublist.mpr hx) (List.Nodup.of_map _ hs) fun q hq => ?_
    rw [List.mem_singleton, List.any_eq_true]
    have hhit : ∀ h ∈ s.tc.records, overlaps s.params.clearance h new = true ↔ h = x := fun h hh => by
      rw [overlaps_iff, hstamp, show new.length = ln by rw [hnew]; rfl]
      refine ⟨fun hno => ?_, fun e => e ▸ hoverlap⟩
      by_contra hne
      exact hno (hapart h hh fun e => hne (State.eq_of_tag hs hx hh e)).1
    constructor
    · rintro rfl
      exact ⟨q, List.mem_filter.mpr ⟨hq, (hhit q hq).mpr rfl⟩, beq_self_eq_true _⟩
    · rintro ⟨h, hh, e⟩
      obtain ⟨hhs, hover⟩ := List.mem_filter.mp hh
      rw [(hhit h hhs).mp hover, beq_iff_eq, hxlead] at e
      by_contra hne
      exact (hapart q hq fun e' => hne (State.eq_of_tag hs hx hq e')).2 e.symm
  rw [hpass.exec c k, ← hnew]
  -- the two ends of the list keep their other records
  have hfix : ∀ f : Record → Record, ∀ q ∈ before ++ after, q.tag ≠ x.tag → (if q.tag ∈ [new, x].map Record.tag then f q else q) = q := fun f q hq hne => by
    refine if_neg ?_
    simpa using ⟨htag q (hlive q hq), hne⟩
  have hpick : ∀ f : Record → Record, ∀ q ∈ [new, x], (if q.tag ∈ [new, x].map Record.tag then f q else q) = f q := fun f q hq => if_pos (List.mem_map_of_mem hq)
  -- each of the two is its own cluster
  have hnx : new.tag ≠ x.tag := fun e => htag x hx e.symm
  have hnewl : new ∈ before ++ new :: after := henters.mem.mpr (.inl rfl)
  have hxl : x ∈ before ++ new :: after := henters.mem.mpr (.inr hx)
  have hnewm : ((s.numbered n).setRecords (before ++ new :: after)).membersOf new.tag = [new] := State.membersOf_alone henters.tableLaw hnewl hcl fun q hq hne =>
    hlead q ((henters.mem.mp hq).resolve_left fun e => hne (by rw [e]))
  have hxm : ((s.numbered n).setRecords (before ++ new :: after)).membersOf x.tag = [x] := State.membersOf_alone henters.tableLaw hxl hxc fun q hq hne => by
    obtain rfl | hqs := henters.mem.mp hq
    · rw [hnewlead]
      exact hne
    · exact (hapart q hqs hne).2
  refine ⟨fun hpending hbefore hahead => ?_, fun hpending hafter hahead => ?_, fun hstate hahead => ?_, fun route hstate hxr hahead hxahead => ?_⟩
  · obtain ⟨pre, post, hbe⟩ := List.append_of_mem hbefore
    have hnot : x ∉ pre := fun hin => by
      have hn := List.Nodup.of_map _ hs
      rw [hrec, hbe, List.append_assoc] at hn
      exact List.disjoint_of_nodup_append hn hin List.mem_cons_self
    have hpre : ∀ q ∈ pre, q ∉ [new, x] := fun q hq hin => by
      have hqs : q ∈ s.tc.records := hlive q (List.mem_append_left _ (hbe ▸ List.mem_append_left _ hq))
      obtain rfl | hqx := List.mem_cons.mp hin
      · exact htag q hqs rfl
      · exact hnot (List.mem_singleton.mp hqx ▸ hq)
    rw [henters.links_ahead hm (List.cons_ne_nil _ _) (fun q hq => List.mem_singleton.mp hq ▸ hpending) (by simp) (pre := pre) (post := post ++ new :: after) (lead := x)
      (by rw [hbe]; simp) (by simp) hpre hahead, hu]
    refine congrArg (fun rs => Host.Outcome.next ((s.numbered n).setRecords rs)) (map_pair ?_ ?_ hnx hsame (hfix _))
    · rw [hpick _ new (by simp), State.linked, if_neg hnx, ← hway]
    · rw [hpick _ x (by simp), State.linked, if_pos rfl]
      rfl
  · have hpre : ∀ q ∈ before, q ∉ [new, x] := fun q hq hin => by
      obtain rfl | hqx := List.mem_cons.mp hin
      · exact htag q (hlive q (List.mem_append_left _ hq)) rfl
      · have hn := List.Nodup.of_map _ hs
        rw [hrec] at hn
        exact List.disjoint_of_nodup_append hn hq (List.mem_singleton.mp hqx ▸ hafter)
    rw [henters.links_ahead hm (List.cons_ne_nil _ _) (fun q hq => List.mem_singleton.mp hq ▸ hpending) (by simp) (pre := before) (post := after) (lead := new)
      rfl (by simp) hpre (by rw [← hstamp] at hahead; exact hahead), hu]
    refine congrArg (fun rs => Host.Outcome.next ((s.numbered n).setRecords rs)) (map_pair ?_ ?_ hnx hsame (hfix _))
    · rw [hpick _ new (by simp), State.linked, if_pos rfl, ← hstamp]
      rfl
    · rw [hpick _ x (by simp), State.linked, if_neg hnx.symm]
  · have hg : ((s.numbered n).setRecords (before ++ new :: after)).Goers [new] := by
      refine State.goers_lone (fun q hq => List.mem_singleton.mp hq ▸ hnewl) (List.nodup_singleton _) (fun q hq => ?_) (fun q hq => ?_) fun q hq => ?_
      · rw [List.mem_singleton.mp hq]
        exact ⟨hnewlead, hnewm⟩
      · rw [List.mem_singleton.mp hq]
        exact .inl ⟨hst, hroute⟩
      · rw [List.mem_singleton.mp hq]
        exact hahead
    have hv := henters.carries hm (List.cons_ne_nil _ _) (fun h => by
        have := h x (List.mem_singleton_self x)
        rw [this] at hstate
        obtain h | h := hstate <;> cases h) (why := .overlapLate) (fun _ => rfl) (fun h => by
        have := h x (List.mem_singleton_self x)
        rw [this] at hstate
        obtain h | h := hstate <;> cases h) hg (fun q hq => by simp at hq; simp [hq]) (fun q hq => by
        obtain rfl | hqx := List.mem_cons.mp hq
        · exact .inl (List.mem_singleton_self q)
        · exact .inr (List.mem_singleton.mp hqx ▸ hstate))
    rw [hv.of_none_leave (leavers_pending fun q hq => List.mem_singleton.mp hq ▸ hst), hu]
    refine congrArg (fun rs => Host.Outcome.next ((s.numbered n).setRecords rs)) (map_new (if_pos (by simp)) fun q hq => if_neg ?_)
    simpa using htag q (hlive q hq)
  · have hnp : x.state ≠ .pending := fun e => by
      rw [e] at hstate
      obtain h | h := hstate <;> cases h
    have htwo : ∀ q ∈ [new] ++ [x], q = new ∨ q = x := fun q hq => by simpa using hq
    have hg : ((s.numbered n).setRecords (before ++ new :: after)).Goers ([new] ++ [x]) := by
      refine State.goers_lone (fun q hq => ?_) ?_ (fun q hq => ?_) (fun q hq => ?_) fun q hq => ?_
      · obtain rfl | rfl := htwo q hq
        · exact hnewl
        · exact hxl
      · simpa using fun e : new = x => hnx (by rw [e])
      · obtain rfl | rfl := htwo q hq
        · exact ⟨hnewlead, hnewm⟩
        · exact ⟨hxlead, hxm⟩
      · obtain rfl | rfl := htwo q hq
        · exact .inl ⟨hst, hroute⟩
        · exact .inr ⟨hstate, route, hxr⟩
      · obtain rfl | rfl := htwo q hq
        · exact hahead
        · exact hxahead
    have hv := henters.carries hm (List.cons_ne_nil _ _) (fun h => absurd (h x (List.mem_singleton_self x)) hnp) (why := .overlapLate) (fun _ => rfl)
      (fun h => absurd (h x (List.mem_singleton_self x)) hnp) hg (fun q hq => hq) (fun q hq => .inl hq)
    -- the outlet it leaves
    have hb := State.booked_lone hxm hstate hxr
    have hnone : ∀ j, leavers j [new] = [] := leavers_pending fun q hq => List.mem_singleton.mp hq ▸ hst
    have hfirst : ∀ j (y : Outlet), y.relieved j [new] = y := fun j y => if_pos (hnone j)
    have hleft : ∀ j, j ≠ route.outlet → leavers j ([new] ++ [x]) = [] := fun j hj => by rw [leavers_append, hnone, leavers_booked hb, if_neg hj, List.append_nil]
    have houtlets : ∀ {v : State}, v.Carried ((s.numbered n).setRecords (before ++ new :: after)) .overlapLate ([new] ++ [x]) →
        v.outlets = vset s.outlets route.outlet ((s.outlet route.outlet).without x.tag route.units) := fun {v} hv => vget_ext fun j => by
      refine (hv.outlets j).trans ?_
      rw [vget_vset]
      by_cases hj : route.outlet = j
      · rw [if_pos hj, ← hj, Outlet.relieved_append hb, hfirst, routeUnits_lone hxr]
        rfl
      · rw [if_neg hj]
        exact if_pos (hleft j fun e => hj e.symm)
    have hemptied : (∃ j, (s.outlet j).relievedEmpty j ([new] ++ [x])) ↔ (s.outlet route.outlet).rack = .closing ∧ (s.outlet route.outlet).committed ≤ route.units := by
      have hat := Outlet.relievedEmpty_append hb (s.outlet route.outlet) [new]
      rw [hfirst, routeUnits_lone hxr] at hat
      constructor
      · rintro ⟨j, hj⟩
        by_cases e : j = route.outlet
        · subst e
          exact (hat.mp hj).resolve_left fun h => h.1 (hnone _)
        · exact absurd (hleft j e) hj.1
      · exact fun h => ⟨_, hat.mpr (.inr h)⟩
    generalize (s.numbered n).enterRecord new = v at hv
    obtain ⟨b, hb', htau⟩ := hv.emptied
    have hlatch : (if b = true then (0x01 : BitVec 8) else 0) = (s.outlet route.outlet).emptiedBy route.units := by
      unfold Outlet.emptiedBy
      simp only [hb'.trans hemptied]
    rw [hlatch] at htau
    refine congrArg Host.Outcome.next (hv.rest.trans ?_)
    rw [hv.records, houtlets hv, htau, hu]
    have hrecords : (before ++ new :: after).map (fun q => if q.tag ∈ ([new] ++ [x]).map Record.tag then s.ride .overlapLate q else q)
        = (before ++ s.ride .overlapLate new :: after).map (fun q => if q.tag = x.tag then s.ride .overlapLate x else q) :=
      map_pair (hpick _ new (by simp)) (hpick _ x (by simp)) hnx hsame (hfix _)
    exact congrArg (fun rs : List Record => ({ s.numbered n with
      tc := { s.tc with records := rs }
      outlets := vset s.outlets route.outlet ((s.outlet route.outlet).without x.tag route.units)
      tau := { (s.numbered n).tau with latches := (s.numbered n).tau.latches ||| (s.outlet route.outlet).emptiedBy route.units } } : State)) hrecords

end Sys2Proof.Machine
end

section
/-! PROOFS. WITHDRAW TRACK: a lone record out of the table, and one record out of its cluster (spec/02, withdrawal). -/

namespace Sys2Proof.Machine

/-! ### A lone record withdrawn -/

/-- The outlet of a lone ROUTED or DUE record as it is withdrawn: its units, its latest fire point and its place in the request (R77, R98, R121). -/
def Outlet.withdrawn (x : Outlet) (t : Tag) (units : Nat) : Outlet :=
  { x.less units with
    latest := if ∃ l, x.latest = some l ∧ l.owner = t then none else x.latest
    request := match x.request with
      | some (.deadline ms late u) =>
        if t ∈ ms then (if ms.filter (fun m => m != t) = [] then none else some (.deadline (ms.filter (fun m => m != t)) late (u - units))) else some (.deadline ms late u)
      | other => other }

theorem Outlet.dropMember_eq (x : Outlet) (t : Tag) (units : Nat) : x.dropMember t units = { x with
    request := match x.request with
      | some (.deadline ms late u) =>
        if t ∈ ms then (if ms.filter (fun m => m != t) = [] then none else some (.deadline (ms.filter (fun m => m != t)) late (u - units))) else some (.deadline ms late u)
      | other => other } := by
  unfold Outlet.dropMember
  cases hq : x.request with
  | none => exact congrArg (fun w => ({ x with request := w } : Outlet)) hq
  | some w =>
    cases w with
    | test => exact congrArg (fun w => ({ x with request := w } : Outlet)) hq
    | deadline ms late u =>
      dsimp only
      by_cases hin : t ∈ ms
      · rw [if_pos hin, if_pos hin]
        simp only [List.isEmpty_iff]
      · rw [if_neg hin, if_neg hin]
        exact congrArg (fun w => ({ x with request := w } : Outlet)) hq

theorem Outlet.withdrawn_eq (x : Outlet) (t : Tag) (units : Nat) : ((x.dropMember t units).clearLatest t).less units = x.withdrawn t units := by
  rw [Outlet.clearLatest_eq, Outlet.dropMember_eq]
  rfl

/-- A lone record withdrawn, before DRAINING is judged. -/
def State.withdrawnLone (s : State) (r : Record) : State :=
  { s with
    tc := { records := s.tc.records.filter (fun q => q.tag != r.tag), gens := vset s.tc.gens r.slot (vget s.tc.gens r.slot + 1) }
    outlets := match r.route with
      | some route => vset s.outlets route.outlet ((s.outlet route.outlet).withdrawn r.tag route.units)
      | none => s.outlets
    tau := { s.tau with
      keys := s.tau.keys.set r.key.val { vget s.tau.keys r.key with withdrawn := min 16777215 ((vget s.tau.keys r.key).withdrawn + 1) }
      latches := match r.route with
        | some route => s.tau.latches ||| (s.outlet route.outlet).emptiedBy route.units
        | none => s.tau.latches } }

theorem State.withdraw_lone {s : State} (hs : s.tableLaw) {r : Record} (hr : r ∈ s.tc.records) (hc : r.cluster = none) (hm : s.membersOf r.tag = [r])
    (hst : (r.state = .routed ∨ r.state = .due) ∧ r.route ≠ none ∨ (r.state = .pending ∨ r.state = .carried) ∧ r.route = none) : s.withdraw r = some (s.withdrawnLone r).drainCheck := by
  have hlead : r.leaderTag = r.tag := Record.leaderTag_of_leads (Record.leads_of_none hc)
  have hrest : (s.membersOf r.leaderTag).filter (fun x => x.tag != r.tag) = [] := by
    rw [hlead, hm]
    simp
  obtain ⟨hbooked, hroute⟩ | ⟨hfree, hroute⟩ := hst
  · obtain ⟨route, hroute⟩ := Option.ne_none_iff_exists'.mp hroute
    obtain ⟨w, hw⟩ : ∃ w, w = (s.modOutlet route.outlet (fun x => (x.dropMember r.tag route.units).clearLatest r.tag)).release route.outlet route.units := ⟨_, rfl⟩
    have hwithdraw : s.withdraw r = some (w.retire .withdrawn r.tag) := by
      rw [hw]
      unfold State.withdraw
      dsimp only
      rw [hrest, hroute, hlead]
      obtain h | h := hbooked <;> rw [h] <;> rfl
    have hwo : w = ((s.withOutlet route.outlet ((s.outlet route.outlet).withdrawn r.tag route.units)).withLatches ((s.outlet route.outlet).emptiedBy route.units)) := by
      have hmod : (s.modOutlet route.outlet (fun x => (x.dropMember r.tag route.units).clearLatest r.tag)).outlet route.outlet
          = ((s.outlet route.outlet).dropMember r.tag route.units).clearLatest r.tag := State.outlet_modOutlet_self ..
      have hsame : (((s.outlet route.outlet).dropMember r.tag route.units).clearLatest r.tag).emptiedBy route.units = (s.outlet route.outlet).emptiedBy route.units := by
        rw [Outlet.clearLatest_eq, Outlet.dropMember_eq]
        rfl
      have hset := State.setOutlet_setOutlet s route.outlet (((s.outlet route.outlet).dropMember r.tag route.units).clearLatest r.tag) ((s.outlet route.outlet).withdrawn r.tag route.units)
      rw [hw, State.release_eq, hmod, hsame, Outlet.withdrawn_eq]
      exact congrArg (fun v : State => v.withLatches ((s.outlet route.outlet).emptiedBy route.units)) hset
    rw [hwithdraw, State.retire_unlinked (s := w) (by rw [hwo]; exact hs) (by rw [hwo]; exact hr) hc, hwo, State.withdrawnLone, hroute]
    rfl
  · have hwithdraw : s.withdraw r = some (s.retire .withdrawn r.tag) := by
      unfold State.withdraw
      dsimp only
      rw [hrest, hroute]
      obtain h | h := hfree <;> rw [h]
    rw [hwithdraw, State.retire_unlinked hs hr hc, State.withdrawnLone, hroute]
    rfl

/-! ### One record withdrawn out of its cluster -/

/-- The outlet of a booked cluster as one of its records is withdrawn: that record's units and its place in the request, and the latest fire point under the new leader (R77, R98, R121). -/
def Outlet.parted (x : Outlet) (old lead t : Tag) (units : Nat) : Outlet :=
  { x.less units with
    latest := match x.latest with
      | some l => if l.owner = old then some { l with owner := lead } else some l
      | none => none
    request := match x.request with
      | some (.deadline ts late u) => if t ∈ ts then some (.deadline (ts.filter (fun m => m != t)) late (u - units)) else some (.deadline ts late u)
      | other => other }

theorem Outlet.renameLatest_eq (x : Outlet) (old lead : Tag) : x.renameLatest old lead = { x with
    latest := match x.latest with
      | some l => if l.owner = old then some { l with owner := lead } else some l
      | none => none } := by
  unfold Outlet.renameLatest
  cases hl : x.latest with
  | none => exact congrArg (fun w => ({ x with latest := w } : Outlet)) hl
  | some l =>
    dsimp only
    by_cases ho : l.owner = old
    · rw [if_pos ho, if_pos ho]
    · rw [if_neg ho, if_neg ho]
      exact congrArg (fun w => ({ x with latest := w } : Outlet)) hl

/-- Where others of the request remain, it stays. -/
theorem Outlet.parted_eq {x : Outlet} {t : Tag} (hleft : t ∈ x.requestMembers → ∃ m ∈ x.requestMembers, m ≠ t) (old lead : Tag) (units : Nat) :
    ((x.dropMember t units).less units).renameLatest old lead = x.parted old lead t units := by
  have hrequest : (match x.request with
      | some (.deadline ms late u) =>
        if t ∈ ms then (if ms.filter (fun m => m != t) = [] then none else some (.deadline (ms.filter (fun m => m != t)) late (u - units))) else some (.deadline ms late u)
      | other => other : Option Request) = (match x.request with
      | some (.deadline ts late u) => if t ∈ ts then some (.deadline (ts.filter (fun m => m != t)) late (u - units)) else some (.deadline ts late u)
      | other => other : Option Request) := by
    cases hq : x.request with
    | none => rfl
    | some w =>
      cases w with
      | test => rfl
      | deadline ts late u =>
        dsimp only
        by_cases hin : t ∈ ts
        · have hm : x.requestMembers = ts := by
            unfold Outlet.requestMembers
            rw [hq]
          obtain ⟨m, hm', hne⟩ := hleft (hm ▸ hin)
          have hmem : m ∈ ts.filter (fun m => m != t) := List.mem_filter.mpr ⟨hm ▸ hm', bne_iff_ne.mpr hne⟩
          rw [if_pos hin, if_pos hin, if_neg (List.ne_nil_of_mem hmem)]
        · rw [if_neg hin, if_neg hin]
  rw [Outlet.renameLatest_eq, Outlet.dropMember_eq]
  exact congrArg (fun w => ({ x.less units with
    latest := match x.latest with
      | some l => if l.owner = old then some { l with owner := lead } else some l
      | none => none
    request := w } : Outlet)) hrequest

/-- One record out of its cluster's table, counted WITHDRAWN, and the others linked anew under their leader (R40, R42). -/
def State.partedFrom (s : State) (r : Record) (lead : Tag) (ms : List Record) : State :=
  { s with
    tc := {
      records := (s.tc.records.filter (fun q => q.tag != r.tag)).map (fun q => if q.tag ∈ ms.map Record.tag then s.relinked lead ms.length q else q)
      gens := vset s.tc.gens r.slot (vget s.tc.gens r.slot + 1) }
    tau := { s.tau with keys := s.tau.keys.set r.key.val { vget s.tau.keys r.key with withdrawn := min 16777215 ((vget s.tau.keys r.key).withdrawn + 1) } } }

/-- One record out of a cluster, whose others stand under their leader (R42, R48). -/
def State.withdrawnFrom (s : State) (r : Record) (lead : Tag) (ms : List Record) : State :=
  { s with
    tc := {
      records := (s.tc.records.filter (fun q => q.tag != r.tag)).map (fun q => if q.tag ∈ ms.map Record.tag then s.relinked lead ms.length q else q)
      gens := vset s.tc.gens r.slot (vget s.tc.gens r.slot + 1) }
    outlets := match r.route with
      | none => s.outlets
      | some route => vset s.outlets route.outlet ((s.outlet route.outlet).parted r.leaderTag lead r.tag route.units)
    tau := { s.tau with
      keys := s.tau.keys.set r.key.val { vget s.tau.keys r.key with withdrawn := min 16777215 ((vget s.tau.keys r.key).withdrawn + 1) }
      latches := match r.route with
        | some route => s.tau.latches ||| (s.outlet route.outlet).emptiedBy route.units
        | none => s.tau.latches } }

/-- A record retired out of a cluster of several: the others linked anew, the table not empty (R40, R42). -/
theorem State.retire_led {s : State} (hs : s.tableLaw) {r first : Record} {lead : Tag} (hr : r ∈ s.tc.records) (hc : r.cluster ≠ none) {ms : List Record}
    (hms : ms = (s.membersOf r.leaderTag).filter (fun q => q.tag != r.tag)) (hhead : ms.head? = some first)
    (hl : lead = if r.leaderTag = r.tag then first.tag else r.leaderTag) :
    s.retire .withdrawn r.tag = (match r.route with | none => id | some route => fun v : State => v.modOutlet route.outlet (fun x => x.renameLatest r.leaderTag lead))
      (s.partedFrom r lead ms) := by
  obtain ⟨w, hw⟩ : ∃ w, w = (s.without r).countKey r.key .withdrawn := ⟨_, rfl⟩
  have hretire : s.retire .withdrawn r.tag = (((s.without r).countKey r.key .withdrawn).leaveCluster r).drainCheck := State.retire_found hs hr .withdrawn
  have hwrec : w.tc.records = s.tc.records.filter (fun q => q.tag != r.tag) := by rw [hw]; rfl
  have hmembers : w.membersOf r.leaderTag = ms := by
    rw [State.membersOf, hwrec, hms, State.membersOf, List.filter_filter, List.filter_filter]
    exact List.filter_congr fun q _ => Bool.and_comm ..
  obtain ⟨rest, hrest⟩ : ∃ rest, ms = first :: rest := by
    cases ms with
    | nil => cases hhead
    | cons x xs => exact ⟨xs, by rw [Option.some.inj hhead]⟩
  have hwown : w.OwnTags r.leaderTag := State.ownTags (s := w) (by
    unfold State.tableLaw
    rw [hwrec]
    exact hs.sublist (List.filter_sublist.map _)) _
  have hlinked : w.mapRecords (fun m => m.leaderTag == r.leaderTag) (w.relink lead ms.length) = s.partedFrom r lead ms := by
    rw [State.mapRecords_leader hwown, hmembers, hw]
    rfl
  have hleave : w.leaveCluster r = (match r.route with | none => id | some route => fun v : State => v.modOutlet route.outlet (fun x => x.renameLatest r.leaderTag lead))
      (w.mapRecords (fun m => m.leaderTag == r.leaderTag) (w.relink lead ms.length)) := by
    obtain ⟨link, hlink⟩ := Option.ne_none_iff_exists'.mp hc
    unfold State.leaveCluster
    rw [hlink, hmembers, hrest]
    dsimp only
    rw [← hl]
    cases r.route <;> rfl
  rw [hretire, ← hw, hleave, hlinked]
  have hlive : first ∈ ms := hrest ▸ List.mem_cons_self
  have hnonempty : ∀ v : State, v.tc.records = (s.tc.records.filter (fun q => q.tag != r.tag)).map (fun q => if q.tag ∈ ms.map Record.tag then s.relinked lead ms.length q else q) →
      v.drainCheck = v := fun v hv => if_neg fun h => by
    rw [hv, List.map_eq_nil_iff] at h
    rw [hms] at hlive
    obtain ⟨hm, hne⟩ := List.mem_filter.mp hlive
    have hin : first ∈ s.tc.records.filter (fun q => q.tag != r.tag) := List.mem_filter.mpr ⟨(State.mem_membersOf.mp hm).1, hne⟩
    rw [h.2] at hin
    cases hin
  refine hnonempty _ ?_
  cases r.route <;> rfl

/-- One record of a cluster that may be withdrawn: the others, led by `lead` (R42, R48). -/
structure State.Leaving (s : State) (r lead : Record) (ms : List Record) : Prop where
  books : s.booksLaw
  live : r ∈ s.tc.records
  several : r.cluster ≠ none
  unfired : r.state ≠ .fired
  others : ms = (s.membersOf r.leaderTag).filter (fun q => q.tag != r.tag)
  lead_mem : lead ∈ ms
  led : ∃ first, ms.head? = some first ∧ lead.tag = if r.leaderTag = r.tag then first.tag else r.leaderTag

section
variable {s : State} {r lead : Record} {ms : List Record}

theorem State.Leaving.mem_iff (h : s.Leaving r lead ms) {q : Record} : q ∈ ms ↔ q ∈ s.tc.records ∧ q.leaderTag = r.leaderTag ∧ q.tag ≠ r.tag := by
  rw [h.others, List.mem_filter, State.mem_membersOf, bne_iff_ne, and_assoc]

/-- The members of a cluster are in one state, and a CARRIED record has none (R35, R39). -/
theorem State.Leaving.state (h : s.Leaving r lead ms) : r.state = .pending ∧ r.route = none ∨ (r.state = .routed ∨ r.state = .due) ∧ r.route ≠ none := by
  have hroute := h.books.routes r h.live
  cases hst : r.state with
  | pending => exact .inl ⟨rfl, by_contra fun hne => by simpa [hst] using hroute.mp hne⟩
  | routed => exact .inr ⟨.inl rfl, hroute.mpr (.inl hst)⟩
  | due => exact .inr ⟨.inr rfl, hroute.mpr (.inr (.inl hst))⟩
  | fired => exact absurd hst h.unfired
  | carried => exact absurd ((h.books.carries r h.live).2 hst) h.several

/-- The request of an outlet keeps a member of the cluster. -/
theorem State.Leaving.request_left (h : s.Leaving r lead ms) (o : OutletNo) (hin : r.tag ∈ (s.outlet o).requestMembers) : ∃ m ∈ (s.outlet o).requestMembers, m ≠ r.tag := by
  obtain ⟨hl, hleader, hne⟩ := h.mem_iff.mp h.lead_mem
  exact ⟨lead.tag, (h.books.request_whole h.live hl hleader o).mpr hin, hne⟩

/-- One record out of its cluster (R48): a PENDING cluster that has lost its leader is decided when its new decision point is reached (R19). -/
theorem State.Leaving.withdraw (h : s.Leaving r lead ms) : s.withdraw r = some (if r.state = .pending ∧ r.leaderTag = r.tag then (s.withdrawnFrom r lead.tag ms).decideIfReached lead.tag
    else s.withdrawnFrom r lead.tag ms) := by
  obtain ⟨first, hfirst, hled⟩ := h.led
  obtain ⟨rest, hrest⟩ : ∃ rest, ms = first :: rest := by
    cases hms : ms with
    | nil =>
      rw [hms] at hfirst
      cases hfirst
    | cons x xs =>
      rw [hms] at hfirst
      exact ⟨xs, by rw [Option.some.inj hfirst]⟩
  have hothers : (s.membersOf r.leaderTag).filter (fun q => q.tag != r.tag) = first :: rest := h.others.symm.trans hrest
  obtain ⟨hst, hroute⟩ | ⟨hst, hroute⟩ := h.state
  · have hretire : s.retire .withdrawn r.tag = s.withdrawnFrom r lead.tag ms := by
      rw [State.retire_led h.books.slots h.live h.several h.others hfirst hled, State.withdrawnFrom, hroute]
      rfl
    unfold State.withdraw
    dsimp only
    rw [hothers, hst, hroute, hretire]
    by_cases he : r.leaderTag = r.tag
    · rw [if_pos ⟨rfl, he⟩, hled, if_pos he]
      exact congrArg some (if_pos he)
    · rw [if_neg fun h => he h.2]
      exact congrArg some (if_neg he)
  · obtain ⟨route, hroute⟩ := Option.ne_none_iff_exists'.mp hroute
    obtain ⟨x, hx⟩ : ∃ x, x = (s.outlet route.outlet).dropMember r.tag route.units := ⟨_, rfl⟩
    obtain ⟨w, hw⟩ : ∃ w, w = (s.modOutlet route.outlet (fun x => x.dropMember r.tag route.units)).release route.outlet route.units := ⟨_, rfl⟩
    have hwithdraw : s.withdraw r = some (w.retire .withdrawn r.tag) := by
      rw [hw]
      unfold State.withdraw
      dsimp only
      rw [hothers, hroute]
      obtain h | h := hst <;> rw [h] <;> rfl
    have hwo : w = (s.withOutlet route.outlet (x.less route.units)).withLatches ((s.outlet route.outlet).emptiedBy route.units) := by
      have hmod : (s.modOutlet route.outlet (fun x => x.dropMember r.tag route.units)).outlet route.outlet = x := (State.outlet_modOutlet_self ..).trans hx.symm
      have hsame : x.emptiedBy route.units = (s.outlet route.outlet).emptiedBy route.units := by
        rw [hx, Outlet.dropMember_eq]
        rfl
      have hset := State.setOutlet_setOutlet s route.outlet x (x.less route.units)
      rw [hw, State.release_eq, hmod, hsame]
      subst hx
      exact congrArg (fun v : State => v.withLatches ((s.outlet route.outlet).emptiedBy route.units)) hset
    have hretire := State.retire_led (s := w) (by rw [hwo]; exact h.books.slots) (by rw [hwo]; exact h.live) h.several (ms := ms) (by rw [hwo]; exact h.others) hfirst hled
    have hout : (w.partedFrom r lead.tag ms).outlet route.outlet = x.less route.units := by
      rw [hwo]
      exact State.outlet_setOutlet_self s route.outlet (x.less route.units)
    have hrename : (w.partedFrom r lead.tag ms).modOutlet route.outlet (fun x => x.renameLatest r.leaderTag lead.tag) = s.withdrawnFrom r lead.tag ms := by
      have hset := State.setOutlet_setOutlet s route.outlet (x.less route.units) ((s.outlet route.outlet).parted r.leaderTag lead.tag r.tag route.units)
      rw [State.modOutlet_eq, hout, hx, Outlet.parted_eq (h.request_left route.outlet), State.withdrawnFrom, hroute]
      rw [hwo]
      exact congrArg (fun v : State => ((v.withLatches ((s.outlet route.outlet).emptiedBy route.units)).partedFrom r lead.tag ms)) hset
    rw [hwithdraw, hretire, hroute, if_neg fun e => by obtain h | h := hst <;> rw [h] at e <;> cases e.1]
    exact congrArg some hrename

theorem State.relinked_tag (s : State) (t : Tag) (n : Nat) (q : Record) : (s.relinked t n q).tag = q.tag := by
  unfold State.relinked
  split <;> rfl

theorem State.Leaving.tableLaw (h : s.Leaving r lead ms) : (s.withdrawnFrom r lead.tag ms).tableLaw :=
  State.withEach_tableLaw (s := s.without r) (h.books.slots.sublist (List.filter_sublist.map _)) (s.relinked_tag lead.tag ms.length)

/-- The new leader in the table. -/
theorem State.Leaving.find_lead (h : s.Leaving r lead ms) : (s.withdrawnFrom r lead.tag ms).find lead.tag = some (s.relinked lead.tag ms.length lead) := by
  obtain ⟨hl, hleader, hne⟩ := h.mem_iff.mp h.lead_mem
  have hout : (s.without r).tableLaw := h.books.slots.sublist (List.filter_sublist.map _)
  have hfind := State.find_withEach (s := s.without r) (ms := ms) (f := s.relinked lead.tag ms.length) hout (s.relinked_tag _ _) (r := lead) (List.mem_filter.mpr ⟨hl, bne_iff_ne.mpr hne⟩)
  rw [if_pos (List.mem_map_of_mem h.lead_mem)] at hfind
  exact hfind

/-- The answer's bytes for the leader after a withdrawal (R191). -/
theorem State.leaderAfter_head (hhead : ms.head? = some lead) {t : State} {m : Record} (hm : t.find lead.tag = some m) (hlead : m.leaderTag = lead.tag) :
    t.leaderAfter (ms.map Record.tag) = if m.cluster = none then 0xFFFF else lead.slot.val * 16 + lead.gen.toNat := by
  unfold State.leaderAfter
  obtain ⟨rest, hrest⟩ := List.head?_eq_some_iff.mp hhead
  rw [hrest, List.map_cons, List.filterMap_cons, hm]
  dsimp only [List.head?]
  cases hc : m.cluster with
  | none => rfl
  | some c =>
    rw [hlead]
    rfl

/-- WITHDRAW TRACK of one record of a cluster, answered (R191). -/
theorem State.Leaving.track (h : s.Leaving r lead ms) {tag : BitVec 16} (htag : r.slot.val * 16 + r.gen.toNat = tag.toNat) {t : State} (ht : s.withdraw r = some t) :
    s.withdrawTrack tag = (t, okWith (be 1 r.state.code ++ be 2 (t.leaderAfter (ms.map Record.tag)))) := by
  unfold State.withdrawTrack
  rw [State.onTag_found h.books.slots h.live htag, ht, h.others]

theorem RecordState.code_byte (st : RecordState) : be 1 st.code = [match st with | .pending => 1 | .routed => 2 | .due => 3 | .fired => 4 | .carried => 5] := by
  cases st <;> rfl

/-- A PENDING cluster that has lost its leader, decided at once (R19, R48, R79). -/
theorem State.Leaving.decides (h : s.Leaving r lead ms) (hst : r.state = .pending) (hself : r.leaderTag = r.tag)
    (hahead : s.endsAhead s.bpu.position ms) (hreached : atOrBeyond s.bpu.position (plus lead.stamp s.params.q) = true) {u : State} (hu : u = s.withdrawnFrom r lead.tag ms) :
    u.decidesTo (u.membersOf lead.tag) (s.relinked lead.tag ms.length lead) (u.decideIfReached lead.tag) := by
  obtain ⟨l, hl⟩ : ∃ l, l = s.relinked lead.tag ms.length lead := ⟨_, rfl⟩
  obtain ⟨hlive, hleader, hne⟩ := h.mem_iff.mp h.lead_mem
  have hltag : l.tag = lead.tag := by
    rw [hl, State.relinked, if_pos rfl]
    rfl
  have hlstate : l.state = .pending := by
    rw [hl, State.relinked, if_pos rfl]
    exact (h.books.clustered.same h.live hlive hleader).1.trans hst
  have hlway : l.waypoint = some (plus lead.stamp s.params.q) := by
    rw [hl, State.relinked, if_pos rfl]
    exact if_pos ((h.books.clustered.same h.live hlive hleader).1.trans hst)
  have hfind : u.find lead.tag = some l := by rw [hu, hl]; exact h.find_lead
  have hmember : ∀ q ∈ u.membersOf lead.tag, ∃ p ∈ ms, q = s.relinked lead.tag ms.length p := by
    intro q hq
    obtain ⟨hq, hqt⟩ := State.mem_membersOf.mp hq
    rw [hu] at hq
    obtain ⟨p, hp, rfl⟩ := List.mem_map.mp hq
    obtain ⟨hp, hpr⟩ := List.mem_filter.mp hp
    by_cases hin : p.tag ∈ ms.map Record.tag
    · rw [if_pos hin]
      obtain ⟨p', hp', he⟩ := List.mem_map.mp hin
      rw [← State.eq_of_tag h.books.slots (h.mem_iff.mp hp').1 hp he.symm] at hp'
      exact ⟨p, hp', rfl⟩
    · rw [if_neg hin] at hqt
      obtain ⟨m, hm, hmt, hmleads, -⟩ := h.books.clustered.leader p hp
      rw [State.eq_of_tag h.books.slots hlive hm (hmt.trans hqt)] at hmleads
      exact absurd ((Record.leaderTag_of_leads hmleads).symm.trans (hleader.trans hself)) hne
  have hkeep : ∀ p, (s.relinked lead.tag ms.length p).route = p.route ∧ s.endPoint (s.relinked lead.tag ms.length p) = s.endPoint p := fun p => by
    unfold State.relinked
    split <;> exact ⟨rfl, rfl⟩
  have hfree : ∀ q ∈ u.membersOf lead.tag, q.route = none := fun q hq => by
    obtain ⟨p, hp, rfl⟩ := hmember q hq
    rw [(hkeep p).1]
    exact h.books.free h.live hst p (State.mem_membersOf.mpr ⟨(h.mem_iff.mp hp).1, (h.mem_iff.mp hp).2.1⟩)
  have hends : u.endsAhead u.bpu.position (u.membersOf lead.tag) := fun q hq => by
    obtain ⟨p, hp, rfl⟩ := hmember q hq
    rw [hu]
    exact (congrArg (atOrBeyond s.bpu.position) (hkeep p).2).trans (hahead p hp)
  have hut : u.tableLaw := by
    rw [hu]
    exact h.tableLaw
  rw [← hl]
  rw [← hltag] at hfind hfree hends ⊢
  rw [State.decideIfReached_reached hfind hlway hlstate (by rw [hu]; exact hreached)]
  exact State.decisionWalk_decidesTo hut (List.mem_of_find?_eq_some hfind) hfree hends

end

theorem State.withdrawTrack_late {s : State} {tag : BitVec 16} {r : Record} (hs : s.tableLaw) (hr : r ∈ s.tc.records) (htag : r.slot.val * 16 + r.gen.toNat = tag.toNat) (h : r.state = .fired) :
    s.withdrawTrack tag = (s, refuse .tooLate) := by
  have hlate : s.withdraw r = none := by
    unfold State.withdraw
    dsimp only
    rw [h]
  unfold State.withdrawTrack
  rw [State.onTag_found hs hr htag, hlate]

/-- WITHDRAW TRACK of a lone record, answered (R191; log 16). -/
theorem State.withdrawTrack_lone {s t : State} {tag : BitVec 16} {r : Record} (hs : s.tableLaw) (hr : r ∈ s.tc.records) (htag : r.slot.val * 16 + r.gen.toNat = tag.toNat)
    (hc : r.cluster = none) (hm : s.membersOf r.tag = [r]) (ht : s.withdraw r = some t) : s.withdrawTrack tag = (t, okWith (be 1 r.state.code ++ be 2 0xFFFF)) := by
  have hnone : (s.membersOf r.leaderTag).filter (fun x => x.tag != r.tag) = [] := by
    rw [Record.leaderTag_of_leads (Record.leads_of_none hc), hm]
    simp
  unfold State.withdrawTrack
  rw [State.onTag_found hs hr htag, ht, hnone]
  rfl

/-- Settles O54: the refusals, a lone record by its route, and one record out of its cluster by the leadership. -/
theorem withdrawTrackRetiresTheRecord : Obligations.WithdrawTrackRetiresTheRecord := by
  intro s tag r hhold
  have hexec {t : State} {x : Response} (h : s.withdrawTrack tag = (t, x)) : exec (.withdrawTrack tag) s = .next (t.answered (.withdrawTrack tag) x) :=
    exec_served (body := fun s => s.withdrawTrack tag) rfl hhold h
  refine ⟨fun h => hexec (State.onTag_none h _), fun h hnone => hexec (State.onTag_not_found h hnone _), fun hr hrt hs =>
    ⟨fun h => hexec (State.withdrawTrack_late hs hr hrt h), fun _ hc hothers hst => ?_, fun ms lead u code hunfired hc hbooks hms hhead hled hcode hu => ?_⟩⟩
  · have hm := State.membersOf_alone hs hr hc hothers
    have hdrained := State.drainCheck_rest (s.withdrawnLone r)
    have htc := State.drainCheck_tc (s.withdrawnLone r)
    refine ⟨(s.withdrawnLone r).drainCheck, ?_, State.takenOut_drained hs hr rfl rfl rfl, fun j => ?_, ?_⟩
    · rw [hexec (State.withdrawTrack_lone hs hr hrt hc hm (State.withdraw_lone hs hr hc hm hst)), RecordState.code_byte]
      rfl
    · rw [hdrained]
      cases hroute : r.route with
      | none => exact congrArg (fun x => vget x j) (show (s.withdrawnLone r).outlets = s.outlets by rw [State.withdrawnLone, hroute])
      | some route =>
        have houtlets : (s.withdrawnLone r).outlets = vset s.outlets route.outlet ((s.outlet route.outlet).withdrawn r.tag route.units) := by rw [State.withdrawnLone, hroute]
        refine (congrArg (fun x => vget x j) houtlets).trans ((vget_vset ..).trans ?_)
        by_cases hj : route.outlet = j
        · subst hj
          rw [if_pos rfl]
          exact (if_pos rfl).symm
        · rw [if_neg hj]
          exact (if_neg fun e => hj e.symm).symm
    · rw [hdrained]
      rfl
  · have hleaving : s.Leaving r lead ms := by
      refine ⟨hbooks, hr, hc, hunfired, hms, List.mem_of_head? hhead, lead, hhead, ?_⟩
      by_cases he : r.leaderTag = r.tag
      · rw [if_pos he]
      · rw [if_neg he, hled he]
    have huw : u = s.withdrawnFrom r lead.tag ms := hu
    have hbyte : ∀ n, be 1 r.state.code ++ be 2 n = code :: be 2 n := fun n => by
      rw [hcode, RecordState.code_byte]
      rfl
    obtain ⟨l, hl⟩ : ∃ l, l = s.relinked lead.tag ms.length lead := ⟨_, rfl⟩
    have hltag : l.tag = lead.tag := hl ▸ s.relinked_tag lead.tag ms.length lead
    have hlink : l.leaderTag = lead.tag ∧ (l.cluster = none ↔ ms.length = 1) ∧ (r.state = .pending → l.waypoint = some (plus lead.stamp s.params.q)) := by
      obtain ⟨hlead, hleader, -⟩ := hleaving.mem_iff.mp hleaving.lead_mem
      rw [hl, State.relinked, if_pos rfl]
      refine ⟨?_, ?_, fun hst => if_pos ((hbooks.clustered.same hr hlead hleader).1.trans hst)⟩
      · by_cases h : ms.length = 1
        · rw [if_pos h]
          rfl
        · rw [if_neg h]
          rfl
      · by_cases h : ms.length = 1 <;> simp [h]
    have hfind : u.find lead.tag = some l := by
      rw [huw, hl]
      exact hleaving.find_lead
    have hwithdraw := hleaving.withdraw
    rw [← huw] at hwithdraw
    refine ⟨fun hstays => ?_, fun hst hself hreached hends => ?_⟩
    · have hsame : s.withdraw r = some u := by
        rw [hwithdraw]
        split
        · next h =>
          obtain hne | hne | hahead := hstays
          · exact absurd h.1 hne
          · exact absurd h.2 hne
          · rw [← hltag] at hfind ⊢
            rw [State.decideIfReached_ahead hfind (hlink.2.2 h.1) (by rw [huw]; exact hahead)]
        · rfl
      rw [hexec (hleaving.track hrt hsame), hbyte, State.leaderAfter_head hhead hfind hlink.1]
      simp only [hlink.2.1]
      rfl
    · have hdecides := hleaving.decides hst hself hends hreached huw
      rw [if_pos ⟨hst, hself⟩] at hwithdraw
      rw [← hl] at hdecides ⊢
      obtain ⟨f, hf, htc⟩ := State.walksTo_records hdecides
      have hlive : l ∈ u.membersOf lead.tag := State.mem_membersOf.mpr ⟨List.mem_of_find?_eq_some hfind, hlink.1⟩
      have hafter : (u.decideIfReached lead.tag).find lead.tag = some (f l) := by
        have h := State.find_withEach (s := u) (ms := u.membersOf lead.tag) (huw ▸ hleaving.tableLaw) (fun q => (hf q).tag) (State.mem_membersOf.mp hlive).1
        rw [if_pos (List.mem_map_of_mem hlive), hltag] at h
        exact (congrArg (fun tc => tc.records.find? (fun q => q.tag == lead.tag)) htc).trans h
      have hleader : (f l).leaderTag = lead.tag := by
        obtain h | h := (hf l).leader
        · exact h.trans hlink.1
        · exact h.trans hltag
      refine ⟨_, f l, hdecides, List.mem_of_find?_eq_some hafter, (hf l).tag.trans hltag, ?_⟩
      rw [hexec (hleaving.track hrt hwithdraw), hbyte, State.leaderAfter_head hhead hafter hleader]
      rfl

end Sys2Proof.Machine
end

section
/-! PROOFS. The encoder sample: what work on records and the belt does not read, and the line filters (spec/01, encoder inputs). -/

namespace Sys2Proof.Machine

/-! ### What the decoder's work does not read -/

/-- What a sample writes of its own: the divider, the encoder pins and the encoder line filters (R1, R2). -/
structure Samples where
  time : TimeBase
  pinA : Bool
  pinB : Bool
  lineA : Filter
  lineB : Filter

/-- A state with its samples replaced. -/
def State.sampledAs (s : State) (d : Samples) : State :=
  { s with
    time := d.time
    pins := { s.pins with encA := d.pinA, encB := d.pinB }
    bpu := { s.bpu with encA := d.lineA, encB := d.lineB } }

@[simp] theorem State.find_sampledAs (s : State) (d : Samples) (t : Tag) : (s.sampledAs d).find t = s.find t := rfl
@[simp] theorem State.membersOf_sampledAs (s : State) (d : Samples) (t : Tag) : (s.sampledAs d).membersOf t = s.membersOf t := rfl
@[simp] theorem State.outlet_sampledAs (s : State) (d : Samples) (o : OutletNo) : (s.sampledAs d).outlet o = s.outlet o := rfl
@[simp] theorem State.pickGrant_sampledAs (s : State) (d : Samples) : (s.sampledAs d).pickGrant = s.pickGrant := rfl

/-- An operation that neither reads nor writes the samples. -/
def Blind (f : State → State) : Prop := ∀ s d, f (s.sampledAs d) = (f s).sampledAs d

theorem Blind.comp {f g : State → State} (hf : Blind f) (hg : Blind g) : Blind (fun s => g (f s)) := fun s d =>
  (congrArg g (hf s d)).trans (hg (f s) d)

theorem Blind.foldl {α : Type} {f : State → α → State} (hf : ∀ a, Blind (fun s => f s a)) : ∀ l : List α, Blind (fun s => l.foldl f s)
  | [] => fun _ _ => rfl
  | a :: rest => (hf a).comp (Blind.foldl hf rest)

/-- A branch whose condition the samples do not change. -/
theorem Blind.ite {c : State → Prop} [∀ s, Decidable (c s)] {f g : State → State} (hc : ∀ s d, c (s.sampledAs d) ↔ c s) (hf : Blind f) (hg : Blind g) :
    Blind (fun s => if c s then f s else g s) := fun s d => by
  by_cases h : c s
  · simp only [if_pos h, if_pos ((hc s d).mpr h), hf s d]
  · simp only [if_neg h, if_neg (mt (hc s d).mp h), hg s d]

theorem Blind.raiseIf {c : State → Bool} (src : Source) (hc : ∀ s d, c (s.sampledAs d) = c s) : Blind (fun s => s.raiseIf (c s) src) :=
  Blind.ite (c := fun s => c s = true) (f := fun s => s.raise src) (g := id) (fun s d => by rw [hc]) (fun _ _ => rfl) fun _ _ => rfl

/-! ### Outlets and retirement -/

theorem Blind.release (o : OutletNo) (n : Nat) : Blind (fun s => s.release o n) :=
  Blind.ite (c := fun s => (s.outlet o).rack = .closing ∧ (s.outlet o).committed - n = 0) (fun _ _ => Iff.rfl) (fun _ _ => rfl) fun _ _ => rfl

theorem Blind.giveBack (r : Record) : Blind (fun s => s.giveBack r) := by
  unfold State.giveBack
  cases r.route with
  | none => exact fun _ _ => rfl
  | some route => exact Blind.release _ _

theorem Blind.drainCheck : Blind State.drainCheck :=
  Blind.ite (c := fun s => s.service = .draining ∧ s.tc.records = []) (fun _ _ => Iff.rfl) (fun _ _ => rfl) fun _ _ => rfl

theorem Blind.leaveCluster (r : Record) : Blind (fun s => s.leaveCluster r) := fun s d => by
  dsimp only [State.leaveCluster, State.membersOf_sampledAs]
  cases r.cluster with
  | none => rfl
  | some c =>
    cases s.membersOf r.leaderTag with
    | nil => rfl
    | cons first rest => cases r.route <;> rfl

theorem Blind.retire (c : RetireOutcome) (t : Tag) : Blind (fun s => s.retire c t) := fun s d => by
  dsimp only [State.retire, State.find_sampledAs]
  cases s.find t with
  | none => rfl
  | some r =>
    exact Blind.comp (f := fun v : State => ({ v with tc := { records := v.tc.records.filter (fun x => x.tag != t), gens := vset v.tc.gens r.slot (vget v.tc.gens r.slot + 1) } } : State).countKey r.key c.count)
      (fun _ _ => rfl) ((Blind.leaveCluster r).comp Blind.drainCheck) s d

/-! ### Carrying -/

theorem Blind.carryRecord (why : CarryReason) (t : Tag) : Blind (fun s => s.carryRecord why t) := fun s d => by
  dsimp only [State.carryRecord, State.find_sampledAs]
  cases s.find t with
  | none => rfl
  | some r =>
    have hride : Blind (fun v : State => (v.giveBack r).mapRecords (fun x => x.tag == t) (Record.carried why (s.endPoint r))) :=
      Blind.comp (g := fun v => v.mapRecords (fun x => x.tag == t) (Record.carried why (s.endPoint r))) (Blind.giveBack r) fun _ _ => rfl
    exact Blind.ite (c := fun _ => atOrBeyond s.bpu.position (s.endPoint r) = true) (fun _ _ => Iff.rfl) (hride.comp (Blind.retire .ended t)) hride s d

theorem Blind.detach (t : Tag) : Blind (fun s => s.detach t) := fun s d => by
  dsimp only [State.detach, State.membersOf_sampledAs]
  cases s.membersOf t with
  | nil => rfl
  | cons r rest =>
    dsimp only
    cases r.route with
    | none => rfl
    | some route =>
      exact Blind.ite (c := fun _ => r.state = .routed ∨ r.state = .due) (f := fun v => v.modOutlet route.outlet fun x => (x.clearLatest t).cancelRequest t) (g := id)
        (fun _ _ => Iff.rfl) (fun _ _ => rfl) (fun _ _ => rfl) s d

theorem Blind.carryCluster (why : CarryReason) (t : Tag) : Blind (fun s => s.carryCluster why t) := fun s d =>
  Blind.comp (Blind.detach t) (Blind.foldl (fun a => Blind.carryRecord why a) ((s.membersOf t).map Record.tag)) s d

/-! ### Walks -/

theorem Blind.planCheck (c : ClassNo) (kind : CheckKind) (entry : RouteIx) : Blind (fun s => s.planCheck c kind entry) := fun s d => by
  dsimp only [State.planCheck, State.raise, State.countDevice, State.sampledAs]
  cases s.rd.planStatus <;> rfl

theorem Blind.applyWalk (t : Tag) (c : ClassNo) (result : WalkEnd) : Blind (fun s => s.applyWalk t c result) := by
  cases result with
  | accepted o i f => exact fun _ _ => rfl
  | chainEnd => exact Blind.carryCluster .chainEnd t
  | noChain => exact Blind.carryCluster .noChain t
  | planCheck kind i => exact Blind.comp (Blind.planCheck c kind i) (Blind.carryCluster .planCheck t)

theorem State.walkChain_sampledAs (s : State) (d : Samples) (s0 : Pos) (ms : List Record) (start : Option RouteIx) :
    (s.sampledAs d).walkChain s0 ms start = s.walkChain s0 ms start :=
  State.walkChain_congr (s := s) (t := s.sampledAs d) rfl (fun _ => rfl) start

theorem Blind.walk (kind : WalkKind) (t : Tag) : Blind (fun s => s.walk kind t) := fun s d => by
  dsimp only [State.walk, State.find_sampledAs]
  cases s.find t with
  | none => rfl
  | some lead =>
    dsimp only
    rw [State.walkChain_sampledAs]
    exact Blind.comp (f := fun v => (v.withSampler (s.sampleAudit kind (s.classEntry lead.cls)).1).mapRecords (fun r => r.leaderTag == t) _) (fun _ _ => rfl) (Blind.applyWalk t lead.cls _) s d

/-! ### Grants and fire requests -/

theorem Blind.grant (o : OutletNo) : Blind (fun s => s.grant o) := fun s d => by
  dsimp only [State.grant, State.outlet_sampledAs]
  cases (s.outlet o).request with
  | none => rfl
  | some w => cases w <;> rfl

theorem Blind.grantUpTo : ∀ fuel, Blind (fun s => s.grantUpTo fuel)
  | 0 => fun _ _ => rfl
  | fuel + 1 => by
    refine Blind.ite (c := fun s => s.params.airBudget ≤ s.aa.slotsInUse) (f := id) (g := fun s => match s.pickGrant with | none => s | some o => (s.grant o).grantUpTo fuel)
      (fun _ _ => Iff.rfl) (fun _ _ => rfl) fun s d => ?_
    dsimp only [State.pickGrant_sampledAs]
    cases s.pickGrant with
    | none => rfl
    | some o => exact Blind.comp (Blind.grant o) (Blind.grantUpTo fuel) s d

theorem Blind.fireCluster (t : Tag) : Blind (fun s => s.fireCluster t) := fun s d => by
  dsimp only [State.fireCluster, State.membersOf_sampledAs]
  cases s.membersOf t with
  | nil => rfl
  | cons r rest =>
    dsimp only
    cases r.route with
    | none => rfl
    | some route =>
      dsimp only [State.outlet_sampledAs]
      cases (s.outlet route.outlet).request with
      | some w => exact Blind.comp (f := fun s => s.countOutlet route.outlet .abandoned 1) (fun _ _ => rfl) (Blind.carryCluster .paddleBusy t) s d
      | none =>
        have hask : Blind (fun s : State => if (s.outlet route.outlet).eligible then s.grantDecision else s) :=
          Blind.ite (c := fun s : State => (s.outlet route.outlet).eligible = true) (fun _ _ => Iff.rfl) (Blind.grantUpTo 16) fun _ _ => rfl
        exact Blind.comp (f := fun v : State => (v.modOutlet route.outlet fun x => { x with request := some (.deadline ((r :: rest).map Record.tag)
            (plus route.firePoint (s.outlet route.outlet).fields.lateTolerance) ((r :: rest).map fun m => (m.route.map (·.units)).getD 0).sum) }).mapRecords
            (fun m => m.leaderTag == t) (Record.become .due none)) (fun _ _ => rfl) (hask.comp (g := fun v => v.mapRecords (fun m => m.leaderTag == t && m.state == .due) (Record.become .due (some (plus route.firePoint (s.outlet route.outlet).fields.lateTolerance))))
          (fun _ _ => rfl)) s d

theorem Blind.abandonLate (t : Tag) : Blind (fun s => s.abandonLate t) := fun s d => by
  dsimp only [State.abandonLate, State.membersOf_sampledAs]
  cases s.membersOf t with
  | nil => rfl
  | cons r rest =>
    dsimp only
    cases r.route with
    | none => rfl
    | some route => exact Blind.comp (f := fun s => s.countOutlet route.outlet .abandoned 1) (fun _ _ => rfl) (Blind.carryCluster .fireLate t) s d

theorem Blind.reachKind {act : State → Tag → State} (hact : ∀ t, Blind (fun s => act s t)) (st : RecordState) (p : Pos) : Blind (fun s => s.reachKind st p act) := fun s d =>
  Blind.foldl (f := fun s t => if s.stillAt st p t then act s t else s)
    (fun t => Blind.ite (c := fun s : State => s.stillAt st p t = true) (f := fun s => act s t) (g := id) (fun _ _ => Iff.rfl) (hact t) fun _ _ => rfl) (s.reachedIn st p) s d

theorem Blind.reachWaypoints : Blind State.reachWaypoints := fun s d =>
  ((((Blind.reachKind (Blind.retire .ended) .carried s.bpu.position).comp (Blind.reachKind Blind.abandonLate .due s.bpu.position)).comp
    (Blind.reachKind Blind.fireCluster .routed s.bpu.position)).comp (Blind.reachKind (Blind.walk .decision) .pending s.bpu.position)).comp
    (Blind.reachKind Blind.abandonLate .due s.bpu.position) s d

/-! ### Steps -/

theorem Blind.enterFailsafe : Blind State.enterFailsafe := by
  have hlose : Blind State.loseAll := fun s d =>
    Blind.comp (g := fun v => v.setRecords []) (Blind.foldl (fun _ _ _ => rfl) s.tc.records) (fun _ _ => rfl) s d
  have hclear : Blind State.clearOutlets := fun s d =>
    Blind.raiseIf (c := fun _ => outletNos.any (fun o => (s.outlet o).rack == .closing)) .rack (fun _ _ => rfl) (s.mapOutlets fun _ => Outlet.clearWork) d
  refine Blind.ite (c := fun s => s.service = .failsafe) (f := id) (fun _ _ => Iff.rfl) (fun _ _ => rfl) ?_
  exact Blind.comp (f := fun s : State => ({ s with service := .failsafe } : State).loseAll.clearOutlets)
    (Blind.comp (f := fun s : State => ({ s with service := .failsafe } : State).loseAll) (Blind.comp (f := fun s : State => { s with service := .failsafe }) (fun _ _ => rfl) hlose) hclear)
    (g := fun s : State => ({ s with ilc := { s.ilc with l := s.ilc.e } } : State).raise .failsafe) fun _ _ => rfl

theorem Blind.judgeExcess : Blind State.judgeExcess := by
  have hloss : Blind State.trackLoss := Blind.comp (f := fun s => s.countDevice .trackLosses 1) (fun _ _ => rfl) Blind.enterFailsafe
  intro s d
  unfold State.judgeExcess
  exact Blind.ite (c := fun _ => (decide (s.params.reverseAllow < ahead s.bpu.hwm s.bpu.position) && !s.bpu.reverseExcess) = true) (f := State.trackLoss) (g := id) (fun _ _ => Iff.rfl) hloss
    (fun _ _ => rfl) { s with bpu := { s.bpu with reverseExcess := decide (s.params.reverseAllow < ahead s.bpu.hwm s.bpu.position) } } d

theorem Blind.tickForward : Blind State.tickForward := fun s d => by
  unfold State.tickForward
  exact Blind.comp Blind.judgeExcess Blind.reachWaypoints { s with bpu := { s.bpu with
    position := s.bpu.position + 1
    hwm := if atOrBeyond (s.bpu.position + 1) s.bpu.hwm then s.bpu.position + 1 else s.bpu.hwm
    windowCount := s.bpu.windowCount + 1 } } d

theorem Blind.tickReverse : Blind State.tickReverse := fun s d => by
  unfold State.tickReverse
  exact Blind.judgeExcess { s with bpu := { s.bpu with position := s.bpu.position - 1, windowCount := s.bpu.windowCount - 1 } } d

theorem Blind.illegalStep : Blind State.illegalStep := fun s d => by
  have hfault : Blind State.encoderFault := Blind.comp (f := fun s => s.countDevice .encoderFaults 1) (fun _ _ => rfl) Blind.enterFailsafe
  obtain ⟨v, hv⟩ : ∃ v : State, v = { s with bpu := { s.bpu with errorLevel := min 31 (s.bpu.errorLevel + 1), windowIllegal := true } } := ⟨_, rfl⟩
  have hleft : (s.sampledAs d).illegalStep = if s.bpu.errorLevel = 15 then (v.sampledAs d).encoderFault else v.sampledAs d := by rw [hv]; rfl
  have hright : s.illegalStep = if s.bpu.errorLevel = 15 then v.encoderFault else v := by rw [hv]; rfl
  rw [hleft, hright]
  by_cases h : s.bpu.errorLevel = 15
  · rw [if_pos h, if_pos h, hfault]
  · rw [if_neg h, if_neg h]

theorem Blind.encoderStep (st : EncoderStep) : Blind (fun s => s.encoderStep st) := by
  cases st with
  | still => exact fun _ _ => rfl
  | forward => exact Blind.tickForward
  | reverse => exact Blind.tickReverse
  | illegal => exact Blind.illegalStep

/-! ### One sample of a line -/

/-- In acquisition (R2). -/
theorem Filter.sampleAccept_acquiring {n : Nat} {x : Bool} {f : Filter} (h : f.accepted = none) {c : Nat} (hc : c = if f.run = x ∧ 0 < f.count then f.count + 1 else 1) :
    f.sampleAccept n x = if n ≤ c then { accepted := some x, run := x, count := 0 } else { f with run := x, count := c } := by
  have hsample : f.sample n x = if n ≤ c then { accepted := some x, run := x, count := 0 } else { f with run := x, count := c } := by
    simp only [Filter.sample, h, ← Nat.pos_iff_ne_zero, ← hc]
  unfold Filter.sampleAccept
  rw [hsample]
  by_cases hn : n ≤ c
  · rw [if_pos hn]
    exact ite_self _
  · rw [if_neg hn]
    have hnot : ({ f with run := x, count := c } : Filter).reached n = false := by simp [Filter.reached, h]
    simp only [hnot]
    rfl

/-- A sample equal to the accepted level (R1). -/
theorem Filter.sampleAccept_equal {n : Nat} {x : Bool} {f : Filter} (h : f.accepted = some x) : f.sampleAccept n x = { f with count := 0 } := by
  have hsample : f.sample n x = { f with count := 0 } := by simp [Filter.sample, h]
  have haccept : ({ f with count := 0 } : Filter).accept x = { f with count := 0 } := by rw [Filter.accept, ← h]
  unfold Filter.sampleAccept
  rw [hsample]
  dsimp only
  rw [haccept]
  exact ite_self _

/-- A sample that differs from the accepted level (R1). -/
theorem Filter.sampleAccept_differing {n : Nat} {x l : Bool} {f : Filter} (h : f.accepted = some l) (hx : x ≠ l) :
    f.sampleAccept n x = if n ≤ f.count + 1 then { f with accepted := some x, count := 0 } else { f with count := f.count + 1 } := by
  have hsample : f.sample n x = { f with count := f.count + 1 } := by simp [Filter.sample, h, hx]
  unfold Filter.sampleAccept
  rw [hsample]
  by_cases hn : n ≤ f.count + 1
  · rw [if_pos hn, if_pos (by simp [Filter.reached, h, hn])]
    rfl
  · rw [if_neg hn, if_neg (by simp [Filter.reached, h, hn])]

/-! ### The sample and the step -/

/-- What the decoder makes of two filters: no step in acquisition (R2, R3). -/
def State.stepOf (s : State) (fa fb : Filter) : EncoderStep :=
  match s.bpu.encA.accepted, s.bpu.encB.accepted, fa.accepted, fb.accepted with
  | some a₀, some b₀, some a₁, some b₁ => judgeStep s.params.encInvert a₀ b₀ a₁ b₁
  | _, _, _, _ => .still

theorem State.encoderLevels_eq (s : State) (fa fb : Filter) :
    s.encoderLevels fa fb = ({ s with bpu := { s.bpu with encA := fa, encB := fb } } : State).encoderStep (s.stepOf fa fb) := by
  unfold State.encoderLevels State.stepOf
  cases s.bpu.encA.accepted <;> cases s.bpu.encB.accepted <;> cases fa.accepted <;> cases fb.accepted <;> rfl

/-- A sample's step, with what the sample itself writes (R1, R2, R3). -/
theorem State.sampleEncoder_eq (s : State) (a b : Bool) {fa fb : Filter} (ha : fa = s.bpu.encA.sampleAccept s.params.encFilter a) (hb : fb = s.bpu.encB.sampleAccept s.params.encFilter b) :
    s.sampleEncoder a b = (s.encoderStep (s.stepOf fa fb)).sampledAs { time := { divider := min s.params.msDiv (s.time.divider + 4) }, pinA := a, pinB := b, lineA := fa, lineB := fb } := by
  subst ha hb
  exact (State.encoderLevels_eq ..).trans (Blind.encoderStep (s.stepOf _ _) s { time := { divider := min s.params.msDiv (s.time.divider + 4) }, pinA := a, pinB := b, lineA := _, lineB := _ })

/-- ENCODER STEP's step, with the levels accepted (R3; log 4). -/
theorem State.acceptEncoder_eq (s : State) (a b : Bool) : s.acceptEncoder a b = (s.encoderStep (s.stepOf (s.bpu.encA.accept a) (s.bpu.encB.accept b))).sampledAs
    { time := s.time, pinA := a, pinB := b, lineA := s.bpu.encA.accept a, lineB := s.bpu.encB.accept b } :=
  (State.encoderLevels_eq ..).trans (Blind.encoderStep (s.stepOf _ _) s { time := s.time, pinA := a, pinB := b, lineA := _, lineB := _ })

theorem State.stepOf_acquiring {s : State} (h : s.bpu.encA.accepted = none ∨ s.bpu.encB.accepted = none) (fa fb : Filter) : s.stepOf fa fb = .still := by
  unfold State.stepOf
  obtain h | h := h
  · rw [h]
  · rw [h]
    cases s.bpu.encA.accepted <;> rfl

theorem State.stepOf_same {s : State} {fa fb : Filter} (ha : fa.accepted = s.bpu.encA.accepted) (hb : fb.accepted = s.bpu.encB.accepted) : s.stepOf fa fb = .still := by
  unfold State.stepOf
  rw [ha, hb]
  cases s.bpu.encA.accepted with
  | none => rfl
  | some a =>
    cases s.bpu.encB.accepted with
    | none => rfl
    | some b => exact judgeStep_still ..

/-- The levels of two filters after a sample of one line (R1, R2). -/
theorem sampled_line (n : Nat) (x : Bool) (f : Filter) {g : Filter} (hg : g = f.sampleAccept n x) :
    (∀ l, f.accepted = some l → x = l → g.accepted = some l ∧ g.count = 0)
      ∧ (∀ l, f.accepted = some l → x ≠ l → f.count + 1 < n → g.accepted = some l ∧ g.count = f.count + 1)
      ∧ (∀ l, f.accepted = some l → x ≠ l → n ≤ f.count + 1 → g.accepted = some x ∧ g.count = 0)
      ∧ (∀ c, f.accepted = none → c = (if f.run = x ∧ 0 < f.count then f.count + 1 else 1) →
          (c < n → g.accepted = none ∧ g.run = x ∧ g.count = c) ∧ (n ≤ c → g.accepted = some x ∧ g.count = 0)) := by
  subst hg
  refine ⟨fun l h hx => ?_, fun l h hx hn => ?_, fun l h hx hn => ?_, fun c h hc => ⟨fun hn => ?_, fun hn => ?_⟩⟩
  · subst hx
    rw [Filter.sampleAccept_equal h]
    exact ⟨h, rfl⟩
  · rw [Filter.sampleAccept_differing h hx, if_neg (Nat.not_le.mpr hn)]
    exact ⟨h, rfl⟩
  · rw [Filter.sampleAccept_differing h hx, if_pos hn]
    exact ⟨rfl, rfl⟩
  · rw [Filter.sampleAccept_acquiring h hc, if_neg (Nat.not_le.mpr hn)]
    exact ⟨h, rfl, rfl⟩
  · rw [Filter.sampleAccept_acquiring h hc, if_pos hn]
    exact ⟨rfl, rfl⟩

/-- Settles O4: the sample writes its own part over the step that the accepted levels make, which no operation of that step reads. -/
theorem encoderSampleFiltersEachLine : Obligations.EncoderSampleFiltersEachLine := by
  refine ⟨fun a b s => ?_, fun a b s hstill => ?_⟩
  · obtain ⟨fa, hfa⟩ : ∃ fa, fa = s.bpu.encA.sampleAccept s.params.encFilter a := ⟨_, rfl⟩
    obtain ⟨fb, hfb⟩ : ∃ fb, fb = s.bpu.encB.sampleAccept s.params.encFilter b := ⟨_, rfl⟩
    refine ⟨_, congrArg Host.Outcome.next (s.sampleEncoder_eq a b hfa hfb), fun line hline => ?_, fun hsame => ?_, fun a₀ b₀ a₁ b₁ ha₀ hb₀ ha₁ hb₁ _ => ?_⟩
    · obtain rfl | hline := List.mem_cons.mp hline
      · exact sampled_line s.params.encFilter a s.bpu.encA hfa
      · rw [List.mem_singleton.mp hline]
        exact sampled_line s.params.encFilter b s.bpu.encB hfb
    · have hstep : s.stepOf fa fb = .still := by
        obtain h | h | ⟨ha, hb⟩ := hsame
        · exact State.stepOf_acquiring (.inl h) fa fb
        · exact State.stepOf_acquiring (.inr h) fa fb
        · exact State.stepOf_same ha hb
      rw [hstep]
      rfl
    · refine ⟨_, congrArg Host.Outcome.next (s.acceptEncoder_eq a₁ b₁), ?_⟩
      have hstep : s.stepOf (s.bpu.encA.accept a₁) (s.bpu.encB.accept b₁) = s.stepOf fa fb := by
        have ha₁ : fa.accepted = some a₁ := ha₁
        have hb₁ : fb.accepted = some b₁ := hb₁
        unfold State.stepOf
        rw [ha₁, hb₁]
        rfl
      rw [hstep]
      rfl
  · have hstep : s.stepOf (s.bpu.encA.accept a) (s.bpu.encB.accept b) = .still := by
      obtain h | h | ⟨ha, hb⟩ := hstill
      · exact State.stepOf_acquiring (.inl h) _ _
      · exact State.stepOf_acquiring (.inr h) _ _
      · exact State.stepOf_same ha.symm hb.symm
    refine congrArg Host.Outcome.next ((s.acceptEncoder_eq a b).trans ?_)
    rw [hstep]
    rfl

end Sys2Proof.Machine
end

section
/-! PROOFS. The belt-order list: the commands that do not move the belt keep the high-water mark, a tick moves it by one at most, and a new record is put in its place (spec/02, the belt-order list). -/

namespace Sys2Proof.Machine

/-! ### Lists in belt order -/

/-- Records in belt order behind a high-water mark (R31). -/
abbrev InOrder (h : Pos) (rs : List Record) : Prop := rs.Pairwise (fun a b => ahead h b.stamp ≤ ahead h a.stamp)

/-- Heirs stand as the records they were. -/
theorem InOrder.inherits {h : Pos} {rs qs : List Record} (ho : InOrder h rs) (hi : Inherits qs rs) : InOrder h qs := by
  obtain ⟨ms, hms, hsub⟩ := List.sublistForall₂_iff.mp hi
  have hm : InOrder h ms := ho.sublist hsub
  clear hi hsub ho
  induction hms with
  | nil => exact .nil
  | cons hab hrest ih =>
    obtain ⟨hhead, htail⟩ := List.pairwise_cons.mp hm
    refine List.pairwise_cons.mpr ⟨fun q hq => ?_, ih htail⟩
    obtain ⟨b, hb, hqb⟩ : ∃ b ∈ _, Heir q b := Inherits.heir (List.sublistForall₂_iff.mpr ⟨_, hrest, List.Sublist.refl _⟩) hq
    rw [hqb.stamp, hab.stamp]
    exact hhead b hb

/-- A tick of the high-water mark moves every stamp one further behind it. -/
theorem InOrder.tick {h : Pos} {rs : List Record} (hbound : ∀ r ∈ rs, ahead h r.stamp < 8388607) (ho : InOrder h rs) : InOrder (h + 1) rs := by
  have hmoved : ∀ r ∈ rs, ahead (h + 1) r.stamp = ahead h r.stamp + 1 := fun r hr => by
    have hb := hbound r hr
    unfold ahead at hb ⊢
    bv_omega
  refine List.Pairwise.imp_of_mem (fun {a b} ha hb hab => ?_) ho
  rw [hmoved a ha, hmoved b hb]
  exact Nat.add_le_add_right hab 1

/-- A record is put after those at or behind whose stamps lie further behind (R31). -/
theorem InOrder.insert {h : Pos} {r : Record} (hr : ahead h r.stamp < 8388607) : ∀ {rs : List Record}, (∀ q ∈ rs, ahead h q.stamp < 8388607) → InOrder h rs → InOrder h (insertByStamp r rs)
  | [], _, _ => List.pairwise_singleton ..
  | x :: xs, hbound, ho => by
    obtain ⟨hhead, htail⟩ := List.pairwise_cons.mp ho
    have hx := hbound x List.mem_cons_self
    have hplace : atOrBeyond r.stamp x.stamp = true ↔ ahead h r.stamp ≤ ahead h x.stamp := by
      unfold ahead at hr hx ⊢
      unfold atOrBeyond
      rw [decide_eq_true_iff]
      bv_omega
    unfold insertByStamp
    by_cases hin : atOrBeyond r.stamp x.stamp = true
    · rw [if_pos hin]
      refine List.pairwise_cons.mpr ⟨fun q hq => ?_, InOrder.insert hr (fun q hq => hbound q (List.mem_cons_of_mem x hq)) htail⟩
      obtain rfl | hq := mem_insertByStamp.mp hq
      · exact hplace.mp hin
      · exact hhead q hq
    · rw [if_neg hin]
      have hbehind := Nat.le_of_lt (Nat.not_le.mp (mt hplace.mpr hin))
      refine List.pairwise_cons.mpr ⟨fun q hq => ?_, ho⟩
      obtain rfl | hq := List.mem_cons.mp hq
      · exact hbehind
      · exact (hhead q hq).trans hbehind

/-! ### Commands that do not move the belt -/

/-- What keeps the order: the high-water mark stands while records are live, and the live records are heirs (R9, R31). -/
structure KeepsOrder (s t : State) : Prop where
  rest : t.restLaw
  records : Inherits t.tc.records s.tc.records
  mark : t.bpu.hwm = s.bpu.hwm ∨ t.tc.records = []

theorem KeepsOrder.trans {s t u : State} (h : KeepsOrder s t) (k : KeepsOrder t u) : KeepsOrder s u where
  rest := k.rest
  records := k.records.trans h.records
  mark := by
    obtain hk | hk := k.mark
    · obtain hh | hh := h.mark
      · exact .inl (hk.trans hh)
      · exact .inr (Inherits.nil (hh ▸ k.records))
    · exact .inr hk

theorem KeepsOrder.order {s t : State} (h : KeepsOrder s t) (ho : s.orderLaw) : t.orderLaw := by
  unfold State.orderLaw
  obtain hm | he := h.mark
  · rw [hm]
    exact InOrder.inherits ho h.records
  · rw [he]
    exact .nil

theorem Change.keepsOrder {c : Instr} {s t : State} (h : Change c s t) (hc : c.movesBelt = false) (hs : s.restLaw) : KeepsOrder s t := by
  refine ⟨h.keepsTableLaws.rest hs, h.keepsTableLaws.records, ?_⟩
  cases h with
  | aside h => exact .inl (by rw [h.bpu])
  | deed h => exact .inl (by rw [h.work.bpu])
  | drains => exact .inl (by rw [(Work.drainCheck s).bpu])
  | figures _ _ _ hh => exact .inl hh
  | moves hm => exact absurd hm (by rw [hc]; exact Bool.false_ne_true)
  | rebases hf => exact .inr (hs (.inr hf)).1
  | failsafe => exact .inl (by rw [State.enterFailsafe_bpu])
  | tracking =>
    obtain ⟨gens, keys, he, -⟩ := s.trackingReset_eq
    exact .inr (by rw [he])
  | powerOn => exact .inr rfl
  | counts | outlets | strokeEnds | link | credits | numbers | service | plan | clears => exact .inl rfl

theorem Chain.keepsOrder {c : Instr} {s t : State} (h : Chain c s t) (hc : c.movesBelt = false) (hs : s.restLaw) : KeepsOrder s t :=
  h.keeps (R := fun s t => s.restLaw → KeepsOrder s t) (fun _ hs => ⟨hs, .refl _, .inl rfl⟩) (fun _ _ _ h k hs => (h hs).trans (k (h hs).rest)) (fun _ _ h hs => Change.keepsOrder h hc hs) hs

theorem outletRequest_movesBelt {n : Nat} {o : Byte} {r : Instr} (h : outletRequest n o = some r) : r.movesBelt = false := by
  unfold outletRequest at h
  split at h <;> cases h <;> rfl

/-- No request moves the belt. -/
theorem decodeRequest_movesBelt {code : Byte} {args : List Byte} {r : Instr} (h : decodeRequest code args = some r) : r.movesBelt = false := by
  unfold decodeRequest at h
  dsimp only at h
  split at h
  · unfold decodeRequest0 at h
    split at h <;> cases h <;> rfl
  · unfold decodeRequest1 at h
    split at h
    · cases h; rfl
    · cases h; rfl
    · exact outletRequest_movesBelt h
  · unfold decodeRequest2 at h
    split at h <;> cases h <;> rfl
  · unfold decodeRequest3 at h
    split at h <;> cases h <;> rfl
  · split at h <;> cases h; rfl
  · unfold decodeRequest5 at h
    split at h <;> cases h <;> rfl
  · split at h <;> cases h; rfl
  · split at h <;> cases h; rfl
  · cases h

theorem meant_movesBelt {c : Instr} (h : c.movesBelt = false) : c.meant.movesBelt = false := by
  obtain hm | ⟨bytes, extra, -, hj⟩ := meant_cases c
  · rw [hm]
    exact h
  · obtain ⟨code, args, hd⟩ := judgePortFrame_request hj
    exact decodeRequest_movesBelt hd

/-! ### A step of the encoder -/

theorem State.tickForward_hwm (s : State) : s.tickForward.bpu.hwm = if atOrBeyond (s.bpu.position + 1) s.bpu.hwm then s.bpu.position + 1 else s.bpu.hwm := by
  unfold State.tickForward
  dsimp only
  rw [(Work.reachWaypoints _).bpu, State.judgeExcess_bpu]

theorem State.tickReverse_hwm (s : State) : s.tickReverse.bpu.hwm = s.bpu.hwm := by
  unfold State.tickReverse
  rw [State.judgeExcess_bpu]

theorem State.illegalStep_hwm (s : State) : s.illegalStep.bpu.hwm = s.bpu.hwm := by
  have hfault : ∀ v : State, v.encoderFault.bpu = v.bpu := fun v => State.enterFailsafe_bpu (v.countDevice .encoderFaults 1)
  unfold State.illegalStep
  dsimp only
  split
  · rw [hfault]
  · rfl

/-- A step of the encoder moves the high-water mark by one tick at most (R7). -/
theorem State.encoderStep_mark (s : State) (st : EncoderStep) (hnear : ahead s.bpu.hwm s.bpu.position < 8388607) :
    Inherits (s.encoderStep st).tc.records s.tc.records ∧ ((s.encoderStep st).bpu.hwm = s.bpu.hwm ∨ (s.encoderStep st).bpu.hwm = s.bpu.hwm + 1) := by
  refine ⟨(Chain.encoderStep (c := .encoderStep false false) rfl s st).keepsTableLaws.records, ?_⟩
  cases st with
  | still => exact .inl rfl
  | reverse => exact .inl s.tickReverse_hwm
  | illegal => exact .inl s.illegalStep_hwm
  | forward =>
    unfold State.encoderStep
    rw [State.tickForward_hwm]
    by_cases hbeyond : atOrBeyond (s.bpu.position + 1) s.bpu.hwm = true
    · rw [if_pos hbeyond]
      unfold ahead at hnear
      unfold atOrBeyond at hbeyond
      rw [decide_eq_true_iff] at hbeyond
      bv_omega
    · exact .inl (if_neg hbeyond)

theorem exec_belt {c : Instr} (h : c.movesBelt = true) (s : State) : ∃ st d, exec c s = .next ((s.encoderStep st).sampledAs d) := by
  cases c
  case encoderStep a b => exact ⟨_, _, congrArg Host.Outcome.next (s.acceptEncoder_eq a b)⟩
  case encoderSample a b => exact ⟨_, _, congrArg Host.Outcome.next (s.sampleEncoder_eq a b rfl rfl)⟩
  all_goals cases h

/-- Every command keeps the belt-order list in order while no stamp lies half the range behind the high-water mark (R31). -/
theorem exec_orderLaw {c : Instr} {s t : State} (h : exec c s = .next t) (hrest : s.restLaw) (hlive : ∀ r ∈ s.tc.records, ahead s.bpu.hwm r.stamp < 8388607)
    (hnew : ahead s.bpu.hwm s.bpu.position + s.params.noticeAge < 8388607) (ho : s.orderLaw) : t.orderLaw := by
  cases hc : c.movesBelt with
  | true =>
    obtain ⟨st, d, he⟩ := exec_belt hc s
    rw [h] at he
    obtain rfl := Host.Outcome.next.inj he
    obtain ⟨hrec, hmark⟩ := s.encoderStep_mark st (by omega)
    show InOrder (s.encoderStep st).bpu.hwm (s.encoderStep st).tc.records
    obtain hmark | hmark := hmark
    · rw [hmark]
      exact InOrder.inherits ho hrec
    · rw [hmark]
      exact (InOrder.tick hlive ho).inherits hrec
  | false =>
    obtain hchain | ⟨w, n, stamp, len, cls, key, clamped, slot, ha, -, ht⟩ := exec_next h
    · exact (hchain.keepsOrder (meant_movesBelt hc) hrest).order ho
    · have hfresh := ha.fresh
      have hwork := Work.enterRecord { w with ilc := { w.ilc with e := n + 1 } } (newRecord slot (vget w.tc.gens slot) n stamp len cls key clamped)
      rw [← ht] at hwork
      have hstamp : ahead s.bpu.hwm stamp < 8388607 := by
        unfold ahead at hnew hfresh ⊢
        bv_omega
      have hmark : t.bpu.hwm = s.bpu.hwm := by
        rw [hwork.bpu]
        exact congrArg Bpu.hwm ha.belt
      have hrecords : Inherits t.tc.records (insertByStamp (newRecord slot (vget w.tc.gens slot) n stamp len cls key clamped) s.tc.records) := by
        have hrec := hwork.records
        rw [← ha.table]
        exact hrec
      unfold State.orderLaw
      rw [hmark]
      exact (InOrder.insert (r := newRecord slot (vget w.tc.gens slot) n stamp len cls key clamped) hstamp hlive ho).inherits hrecords

end Sys2Proof.Machine
end

section
/-! PROOFS. The books as agreement of a table with the accounts of the outlets: one part of the table exchanged for another (spec/02, record contents and clusters). -/

namespace Sys2Proof.Machine

/-! ### Accounts -/

/-- What the books say of an outlet: its committed units, the stroke set it holds and the deadline request that waits there (R26, R118, R126). -/
structure Account where
  committed : Nat
  held : Option StrokeSet
  waiting : Option (List Tag × Nat)

def Outlet.account (x : Outlet) : Account where
  committed := x.committed
  held := x.strokeSet
  waiting := match x.request with
    | some (.deadline ms _ units) => some (ms, units)
    | _ => none

/-- The records of a list in a state at an outlet. -/
def recordsIn (st : RecordState) (o : OutletNo) (rs : List Record) : List Record := rs.filter (fun r => decide (r.isAt st o))

/-- The units of the routes at an outlet. -/
def unitsIn (o : OutletNo) (rs : List Record) : Nat := (rs.map (fun r => r.unitsAt o)).sum

/-- The records led by `t`, or alone under it. -/
def clusterOf (t : Tag) (rs : List Record) : List Record := rs.filter (fun r => r.leaderTag == t)

/-- Tags and units that name just these records. -/
structure Names (o : OutletNo) (ts : List Tag) (units : Nat) (rs : List Record) : Prop where
  nodup : ts.Nodup
  tags : ∀ t, t ∈ ts ↔ t ∈ rs.map Record.tag
  units : units = unitsIn o rs

/-- A stroke set holds just these records (R38, R126). -/
def Holds (o : OutletNo) (held : Option StrokeSet) (rs : List Record) : Prop :=
  match held with
  | none => rs = []
  | some set => Names o set.members set.units rs

/-- A deadline request waits for just these records, which are one cluster (R29, R118). -/
def Awaits (o : OutletNo) (waiting : Option (List Tag × Nat)) (rs : List Record) : Prop :=
  match waiting with
  | none => rs = []
  | some (ts, units) => Names o ts units rs ∧ ∀ r ∈ rs, ∀ q ∈ rs, r.leaderTag = q.leaderTag

theorem Holds.imp {o : OutletNo} {held : Option StrokeSet} {rs qs : List Record} (hnil : rs = [] → qs = []) (hn : ∀ {ts n}, Names o ts n rs → Names o ts n qs) (h : Holds o held rs) :
    Holds o held qs := by
  cases held with
  | none => exact hnil h
  | some set => exact hn h

theorem Awaits.imp {o : OutletNo} {waiting : Option (List Tag × Nat)} {rs qs : List Record} (hnil : rs = [] → qs = []) (hn : ∀ {ts n}, Names o ts n rs → Names o ts n qs)
    (hone : (∀ r ∈ rs, ∀ q ∈ rs, r.leaderTag = q.leaderTag) → ∀ r ∈ qs, ∀ q ∈ qs, r.leaderTag = q.leaderTag) (h : Awaits o waiting rs) : Awaits o waiting qs := by
  cases waiting with
  | none => exact hnil h
  | some w => exact ⟨hn h.1, hone h.2⟩

/-- An account agrees with a table. -/
structure Account.Agrees (a : Account) (o : OutletNo) (rs : List Record) : Prop where
  committed : a.committed = unitsIn o rs
  held : Holds o a.held (recordsIn .fired o rs)
  waiting : Awaits o a.waiting (recordsIn .due o rs)

/-- The outlet and the fire point of a record's route, which its cluster shares (R35). -/
def Record.goal (r : Record) : Option (OutletNo × Pos) := r.route.map (fun x => (x.outlet, x.firePoint))

/-- A record's route and carry reason are those of its state (R26, R39). -/
structure Record.Stated (r : Record) : Prop where
  route : r.route ≠ none ↔ r.state = .routed ∨ r.state = .due ∨ r.state = .fired
  carry : r.carry ≠ none ↔ r.state = .carried
  alone : r.state = .carried → r.cluster = none

/-- A record's cluster field agrees with a table (R35, R42). -/
structure Record.Linked (r : Record) (rs : List Record) : Prop where
  member : ∀ t, r.cluster = some (.member t) → ∃ l ∈ rs, l.tag = t ∧ (∃ n, l.cluster = some (.leader n)) ∧ l.state = r.state ∧ l.goal = r.goal
  leader : ∀ n, r.cluster = some (.leader n) → n = (clusterOf r.tag rs).length ∧ 2 ≤ n ∧ n ≤ 8

/-- A table and the accounts of the outlets agree. -/
structure Books (rs : List Record) (acc : OutletNo → Account) : Prop where
  slots : (rs.map (fun r => r.slot)).Nodup
  stated : ∀ r ∈ rs, r.Stated
  linked : ∀ r ∈ rs, r.Linked rs
  accounts : ∀ o, (acc o).Agrees o rs

def State.accounts (s : State) (o : OutletNo) : Account := (s.outlet o).account

theorem State.sum_unitsAt (s : State) (o : OutletNo) (st : RecordState) : s.unitsAt o (fun r => r.state == st) = unitsIn o (recordsIn st o s.tc.records) := by
  unfold State.unitsAt unitsIn recordsIn
  induction s.tc.records with
  | nil => rfl
  | cons r rest ih =>
    by_cases hst : r.state = st
    · by_cases hat : r.route.map (fun x => x.outlet) = some o
      · rw [List.filter_cons_of_pos (p := fun r : Record => r.state == st) (a := r) (by simp [hst]), List.filter_cons_of_pos (p := fun r : Record => decide (r.isAt st o)) (a := r) (by simp [hst, hat]),
          List.map_cons, List.map_cons, List.sum_cons, List.sum_cons, ih]
      · have hzero : r.unitsAt o = 0 := by
          unfold Record.unitsAt
          cases hr : r.route with
          | none => rfl
          | some route => exact if_neg fun e => hat (by rw [hr, ← e]; rfl)
        rw [List.filter_cons_of_pos (p := fun r : Record => r.state == st) (a := r) (by simp [hst]), List.filter_cons_of_neg (p := fun r : Record => decide (r.isAt st o)) (a := r) (by simp [hat]),
          List.map_cons, List.sum_cons, ih, hzero, Nat.zero_add]
    · rw [List.filter_cons_of_neg (p := fun r : Record => r.state == st) (a := r) (by simp [hst]), List.filter_cons_of_neg (p := fun r : Record => decide (r.isAt st o)) (a := r) (by simp [hst]), ih]

theorem mem_recordsIn {st : RecordState} {o : OutletNo} {rs : List Record} {r : Record} : r ∈ recordsIn st o rs ↔ r ∈ rs ∧ r.isAt st o := by
  simp [recordsIn]

theorem recordsIn_eq_nil {st : RecordState} {o : OutletNo} {rs : List Record} : recordsIn st o rs = [] ↔ ∀ r ∈ rs, ¬r.isAt st o := by
  simp [recordsIn, List.filter_eq_nil_iff]

theorem mem_tags_recordsIn {st : RecordState} {o : OutletNo} {rs : List Record} {t : Tag} : t ∈ (recordsIn st o rs).map Record.tag ↔ ∃ r ∈ rs, r.tag = t ∧ r.isAt st o := by
  simp only [List.mem_map, mem_recordsIn]
  exact ⟨fun ⟨r, ⟨hr, hat⟩, ht⟩ => ⟨r, hr, ht, hat⟩, fun ⟨r, hr, ht, hat⟩ => ⟨r, ⟨hr, hat⟩, ht⟩⟩

/-- The books of a state are the agreement of its table with its outlets' accounts. -/
theorem State.booksLaw_iff (s : State) : s.booksLaw ↔ Books s.tc.records s.accounts := by
  refine ⟨fun h => ⟨h.slots, fun r hr => ⟨h.routes r hr, (h.carries r hr).1, (h.carries r hr).2⟩, fun r hr => ⟨h.members r hr, h.leaders r hr⟩, fun o => ⟨?_, ?_, ?_⟩⟩,
    fun h => ⟨h.slots, fun r hr => (h.stated r hr).route, fun r hr => ⟨(h.stated r hr).carry, (h.stated r hr).alone⟩, fun r hr => (h.linked r hr).member,
      fun r hr => (h.linked r hr).leader, fun o => ?_, fun o => ?_, fun o => ?_⟩⟩
  · rw [State.accounts, Outlet.account, h.committed o]
    unfold State.unitsAt
    rw [List.filter_true]
    rfl
  · have hf := h.fired o
    unfold State.accounts Outlet.account Holds
    dsimp only
    cases hset : (s.outlet o).strokeSet with
    | none =>
      rw [hset] at hf
      exact recordsIn_eq_nil.mpr hf
    | some set =>
      rw [hset] at hf
      obtain ⟨hn, ht, hu⟩ := hf
      exact ⟨hn, fun t => (ht t).trans mem_tags_recordsIn.symm, hu.trans (s.sum_unitsAt o .fired)⟩
  · have hd := h.due o
    unfold State.accounts Outlet.account Awaits
    dsimp only
    cases hreq : (s.outlet o).request with
    | none =>
      rw [hreq] at hd
      exact recordsIn_eq_nil.mpr hd
    | some w =>
      rw [hreq] at hd
      cases w with
      | test => exact recordsIn_eq_nil.mpr hd
      | deadline ms late units =>
        obtain ⟨hn, ht, hu, hone⟩ := hd
        exact ⟨⟨hn, fun t => (ht t).trans mem_tags_recordsIn.symm, hu.trans (s.sum_unitsAt o .due)⟩,
          fun r hr q hq => hone r (mem_recordsIn.mp hr).1 q (mem_recordsIn.mp hq).1 (mem_recordsIn.mp hr).2 (mem_recordsIn.mp hq).2⟩
  · refine (h.accounts o).committed.trans ?_
    unfold State.unitsAt
    rw [List.filter_true]
    rfl
  · have hf := (h.accounts o).held
    unfold State.accounts Outlet.account Holds at hf
    dsimp only at hf
    cases hset : (s.outlet o).strokeSet with
    | none =>
      rw [hset] at hf
      exact recordsIn_eq_nil.mp hf
    | some set =>
      rw [hset] at hf
      exact ⟨hf.nodup, fun t => (hf.tags t).trans mem_tags_recordsIn, hf.units.trans (s.sum_unitsAt o .fired).symm⟩
  · have hd := (h.accounts o).waiting
    unfold State.accounts Outlet.account Awaits at hd
    dsimp only at hd
    cases hreq : (s.outlet o).request with
    | none =>
      rw [hreq] at hd
      exact recordsIn_eq_nil.mp hd
    | some w =>
      rw [hreq] at hd
      cases w with
      | test => exact recordsIn_eq_nil.mp hd
      | deadline ms late units =>
        obtain ⟨hd, hone⟩ := hd
        exact ⟨hd.nodup, fun t => (hd.tags t).trans mem_tags_recordsIn, hd.units.trans (s.sum_unitsAt o .due).symm,
          fun r hr q hq har haq => hone r (mem_recordsIn.mpr ⟨hr, har⟩) q (mem_recordsIn.mpr ⟨hq, haq⟩)⟩

/-! ### The order of the table does not matter -/

theorem unitsIn_perm {o : OutletNo} {rs qs : List Record} (h : rs.Perm qs) : unitsIn o rs = unitsIn o qs := (h.map _).sum_eq

theorem Names.perm {o : OutletNo} {ts : List Tag} {n : Nat} {rs qs : List Record} (h : rs.Perm qs) (hn : Names o ts n rs) : Names o ts n qs :=
  ⟨hn.nodup, fun t => (hn.tags t).trans (h.map _).mem_iff, hn.units.trans (unitsIn_perm h)⟩

theorem Account.Agrees.perm {a : Account} {o : OutletNo} {rs qs : List Record} (h : rs.Perm qs) (ha : a.Agrees o rs) : a.Agrees o qs where
  committed := ha.committed.trans (unitsIn_perm h)
  held := by
    have hp : (recordsIn .fired o rs).Perm (recordsIn .fired o qs) := h.filter _
    exact ha.held.imp (fun e => (e ▸ hp).symm.eq_nil) (Names.perm hp)
  waiting := by
    have hp : (recordsIn .due o rs).Perm (recordsIn .due o qs) := h.filter _
    exact ha.waiting.imp (fun e => (e ▸ hp).symm.eq_nil) (Names.perm hp) fun hone r hr q hq => hone r (hp.mem_iff.mpr hr) q (hp.mem_iff.mpr hq)

theorem Record.Linked.perm {r : Record} {rs qs : List Record} (h : rs.Perm qs) (hr : r.Linked rs) : r.Linked qs where
  member t ht := by
    obtain ⟨l, hl, hrest⟩ := hr.member t ht
    exact ⟨l, h.mem_iff.mp hl, hrest⟩
  leader n hn := by
    have hlen : (clusterOf r.tag rs).length = (clusterOf r.tag qs).length := (h.filter _).length_eq
    rw [← hlen]
    exact hr.leader n hn

theorem Books.perm {rs qs : List Record} {acc : OutletNo → Account} (h : rs.Perm qs) (hb : Books rs acc) : Books qs acc where
  slots := (h.map _).nodup_iff.mp hb.slots
  stated r hr := hb.stated r (h.mem_iff.mpr hr)
  linked r hr := (hb.linked r (h.mem_iff.mpr hr)).perm h
  accounts o := (hb.accounts o).perm h

/-! ### Parts of the table -/

theorem unitsIn_append (o : OutletNo) (rs qs : List Record) : unitsIn o (rs ++ qs) = unitsIn o rs + unitsIn o qs := by
  unfold unitsIn
  rw [List.map_append, List.sum_append]

theorem recordsIn_append (st : RecordState) (o : OutletNo) (rs qs : List Record) : recordsIn st o (rs ++ qs) = recordsIn st o rs ++ recordsIn st o qs := List.filter_append ..

/-- Two parts of a table that share no cluster. -/
def Separate (ms rest : List Record) : Prop := ∀ r ∈ ms, ∀ q ∈ rest, r.leaderTag ≠ q.leaderTag

theorem Record.leaderTag_of_leader {l : Record} {n : Nat} (h : l.cluster = some (.leader n)) : l.leaderTag = l.tag :=
  Record.leaderTag_of_leads fun t ht => by rw [h] at ht; cases ht

theorem Record.leaderTag_of_member {r : Record} {t : Tag} (h : r.cluster = some (.member t)) : r.leaderTag = t := by
  unfold Record.leaderTag
  rw [h]

theorem clusterOf_eq_nil {t : Tag} {rs : List Record} (h : ∀ r ∈ rs, r.leaderTag ≠ t) : clusterOf t rs = [] :=
  List.filter_eq_nil_iff.mpr fun r hr => by simpa using h r hr

/-- The leader of a record's cluster is live (R35). -/
theorem Books.leader {rs : List Record} {acc : OutletNo → Account} (h : Books rs acc) {r : Record} (hr : r ∈ rs) :
    ∃ l ∈ rs, l.tag = r.leaderTag ∧ l.leaderTag = r.leaderTag ∧ l.state = r.state ∧ l.goal = r.goal := by
  cases hc : r.cluster with
  | none =>
    have hself := Record.leaderTag_of_leads (Record.leads_of_none hc)
    exact ⟨r, hr, hself.symm, rfl, rfl, rfl⟩
  | some link =>
    cases link with
    | leader n => exact ⟨r, hr, (Record.leaderTag_of_leader hc).symm, rfl, rfl, rfl⟩
    | member t =>
      obtain ⟨l, hl, hlt, ⟨n, hn⟩, hst, hgoal⟩ := (h.linked r hr).member t hc
      have hlead := Record.leaderTag_of_member hc
      exact ⟨l, hl, hlt.trans hlead.symm, (Record.leaderTag_of_leader hn).trans (hlt.trans hlead.symm), hst, hgoal⟩

theorem Books.eq_of_tag {rs : List Record} {acc : OutletNo → Account} (h : Books rs acc) {r q : Record} (hr : r ∈ rs) (hq : q ∈ rs) (e : q.tag = r.tag) : q = r :=
  List.inj_on_of_nodup_map h.slots hq hr (congrArg Tag.slot e)

/-- Records of one cluster are in one state with one goal (R35). -/
theorem Books.same {rs : List Record} {acc : OutletNo → Account} (h : Books rs acc) {r q : Record} (hr : r ∈ rs) (hq : q ∈ rs) (e : q.leaderTag = r.leaderTag) :
    q.state = r.state ∧ q.goal = r.goal := by
  obtain ⟨l, hl, hlt, -, hls, hlg⟩ := h.leader hr
  obtain ⟨m, hm, hmt, -, hms, hmg⟩ := h.leader hq
  rw [h.eq_of_tag hl hm (hmt.trans (e.trans hlt.symm))] at hms hmg
  exact ⟨hms.symm.trans hls, hmg.symm.trans hlg⟩

section
variable {ms rest : List Record} {acc : OutletNo → Account}

/-- No record of the one part is led by a record of the other. -/
theorem Books.tag_apart (h : Books (ms ++ rest) acc) (ha : Separate ms rest) {r q : Record} (hr : r ∈ ms) (hq : q ∈ rest) : r.tag ≠ q.leaderTag := fun e => by
  obtain ⟨l, hl, hlt, hll, -⟩ := h.leader (List.mem_append_right ms hq)
  have hlr := h.eq_of_tag (List.mem_append_left rest hr) hl (hlt.trans e.symm)
  rw [hlr] at hll
  exact ha r hr q hq hll

/-- The clusters of either part are its own. -/
theorem Books.linked_left (h : Books (ms ++ rest) acc) (ha : Separate ms rest) {r : Record} (hr : r ∈ ms) : r.Linked ms where
  member t ht := by
    obtain ⟨l, hl, hlt, ⟨n, hn⟩, hst, hgoal⟩ := (h.linked r (List.mem_append_left rest hr)).member t ht
    obtain hl | hl := List.mem_append.mp hl
    · exact ⟨l, hl, hlt, ⟨n, hn⟩, hst, hgoal⟩
    · exact absurd ((Record.leaderTag_of_member ht).trans (hlt.symm.trans (Record.leaderTag_of_leader hn).symm)) (ha r hr l hl)
  leader n hn := by
    have hl := (h.linked r (List.mem_append_left rest hr)).leader n hn
    have hnil : clusterOf r.tag rest = [] := clusterOf_eq_nil fun q hq e => ha r hr q hq ((Record.leaderTag_of_leader hn).trans e.symm)
    have happ : clusterOf r.tag (ms ++ rest) = clusterOf r.tag ms := by
      rw [clusterOf, List.filter_append]
      exact (congrArg (clusterOf r.tag ms ++ ·) hnil).trans (List.append_nil _)
    rw [happ] at hl
    exact hl

/-- A part of the table exchanged for another that shares no cluster with the rest, and the accounts with it. -/
theorem Books.exchange {ms' : List Record} {acc' : OutletNo → Account} (h : Books (ms ++ rest) acc) (ha : Separate ms rest) (hslots : ((ms' ++ rest).map (fun r => r.slot)).Nodup)
    (hapart : Separate ms' rest) (hstated : ∀ r ∈ ms', r.Stated) (hlinked : ∀ r ∈ ms', r.Linked ms') (hacc : ∀ o, (acc' o).Agrees o (ms' ++ rest)) : Books (ms' ++ rest) acc' where
  slots := hslots
  stated r hr := (List.mem_append.mp hr).elim (hstated r) fun hr => h.stated r (List.mem_append_right ms hr)
  accounts := hacc
  linked r hr := by
    obtain hr | hr := List.mem_append.mp hr
    · refine ⟨fun t ht => ?_, fun n hn => ?_⟩
      · obtain ⟨l, hl, hrest⟩ := (hlinked r hr).member t ht
        exact ⟨l, List.mem_append_left rest hl, hrest⟩
      · have hnil : clusterOf r.tag rest = [] := clusterOf_eq_nil fun q hq e => hapart r hr q hq ((Record.leaderTag_of_leader hn).trans e.symm)
        have happ : clusterOf r.tag (ms' ++ rest) = clusterOf r.tag ms' := by
          rw [clusterOf, List.filter_append]
          exact (congrArg (clusterOf r.tag ms' ++ ·) hnil).trans (List.append_nil _)
        rw [happ]
        exact (hlinked r hr).leader n hn
    · have hswap : Books (rest ++ ms) acc := h.perm List.perm_append_comm
      have hown := hswap.linked_left (fun q hq r hr e => ha r hr q hq e.symm) hr
      refine ⟨fun t ht => ?_, fun n hn => ?_⟩
      · obtain ⟨l, hl, hrest⟩ := hown.member t ht
        exact ⟨l, List.mem_append_right ms' hl, hrest⟩
      · have hnil : clusterOf r.tag ms' = [] := clusterOf_eq_nil fun q hq e => hapart q hq r hr (e.trans (Record.leaderTag_of_leader hn).symm)
        have happ : clusterOf r.tag (ms' ++ rest) = clusterOf r.tag rest := by
          rw [clusterOf, List.filter_append]
          exact (congrArg (· ++ clusterOf r.tag rest) hnil).trans (List.nil_append _)
        rw [happ]
        exact hown.leader n hn

/-- What becomes of a part has the slots it had, and is led by one of its own records or as one was. -/
theorem Books.exchange_within {ms' : List Record} {acc' : OutletNo → Account} (h : Books (ms ++ rest) acc) (ha : Separate ms rest)
    (hslots : (ms'.map (fun r => r.slot)).Sublist (ms.map (fun r => r.slot))) (hlead : ∀ r' ∈ ms', ∃ r ∈ ms, r'.leaderTag = r.leaderTag ∨ r'.leaderTag = r.tag)
    (hstated : ∀ r ∈ ms', r.Stated) (hlinked : ∀ r ∈ ms', r.Linked ms') (hacc : ∀ o, (acc' o).Agrees o (ms' ++ rest)) : Books (ms' ++ rest) acc' := by
  refine h.exchange ha ?_ (fun r' hr' q hq e => ?_) hstated hlinked hacc
  · have hs := h.slots
    rw [List.map_append] at hs ⊢
    exact hs.sublist (hslots.append (List.Sublist.refl _))
  · obtain ⟨r, hr, hl | hl⟩ := hlead r' hr'
    · exact ha r hr q hq (hl.symm.trans e)
    · exact h.tag_apart ha hr hq (hl.symm.trans e)

end

/-! ### Records that change together -/

/-- A record that is tied to none. -/
theorem Record.linked_of_none {r : Record} (h : r.cluster = none) (rs : List Record) : r.Linked rs :=
  ⟨fun t ht => (by rw [h] at ht; cases ht), fun n hn => (by rw [h] at hn; cases hn)⟩

/-- The clusters of records that change in state and goal together stay as they were (R35). -/
theorem linked_map {ms : List Record} (h : ∀ r ∈ ms, r.Linked ms) {f : Record → Record} (htag : ∀ q, (f q).tag = q.tag) (hcluster : ∀ q, (f q).cluster = q.cluster)
    (hsame : ∀ r ∈ ms, ∀ l ∈ ms, l.leaderTag = r.leaderTag → l.state = r.state → l.goal = r.goal → (f l).state = (f r).state ∧ (f l).goal = (f r).goal) : ∀ r ∈ ms.map f, r.Linked (ms.map f) := by
  intro r' hr'
  obtain ⟨r, hr, rfl⟩ := List.mem_map.mp hr'
  have hlead : ∀ q, (f q).leaderTag = q.leaderTag := fun q => by
    unfold Record.leaderTag
    rw [hcluster, htag]
  refine ⟨fun t ht => ?_, fun n hn => ?_⟩
  · rw [hcluster] at ht
    obtain ⟨l, hl, hlt, ⟨n, hn⟩, hst, hgoal⟩ := (h r hr).member t ht
    have hboth := hsame r hr l hl ((Record.leaderTag_of_leader hn).trans (hlt.trans (Record.leaderTag_of_member ht).symm)) hst hgoal
    exact ⟨f l, List.mem_map_of_mem hl, (htag l).trans hlt, ⟨n, (hcluster l).trans hn⟩, hboth.1, hboth.2⟩
  · rw [hcluster] at hn
    have hmap : clusterOf (f r).tag (ms.map f) = (clusterOf r.tag ms).map f := by
      unfold clusterOf
      rw [List.filter_map, htag]
      refine congrArg (List.map f) (List.filter_congr fun q _ => ?_)
      simp only [Function.comp, hlead]
    rw [hmap, List.length_map]
    exact (h r hr).leader n hn

/-- What the books read of a record. -/
structure Record.SameBooks (new old : Record) : Prop where
  slot : new.slot = old.slot
  gen : new.gen = old.gen
  state : new.state = old.state
  cluster : new.cluster = old.cluster
  route : new.route = old.route
  carry : new.carry = old.carry

theorem Record.SameBooks.tag {q r : Record} (h : q.SameBooks r) : q.tag = r.tag := by
  unfold Record.tag
  rw [h.slot, h.gen]

theorem Record.SameBooks.leaderTag {q r : Record} (h : q.SameBooks r) : q.leaderTag = r.leaderTag := by
  unfold Record.leaderTag
  rw [h.cluster, h.tag]

/-- A change of the records that the books do not read. -/
theorem Books.of_map {rs : List Record} {acc : OutletNo → Account} (h : Books rs acc) {f : Record → Record} (hf : ∀ q, (f q).SameBooks q) : Books (rs.map f) acc where
  slots := by
    rw [List.map_map]
    have hslot : (fun r : Record => r.slot) ∘ f = fun r => r.slot := funext fun q => (hf q).slot
    rw [hslot]
    exact h.slots
  stated r' hr' := by
    obtain ⟨r, hr, rfl⟩ := List.mem_map.mp hr'
    have hs := h.stated r hr
    refine ⟨?_, ?_, ?_⟩
    · rw [(hf r).route, (hf r).state]
      exact hs.route
    · rw [(hf r).carry, (hf r).state]
      exact hs.carry
    · rw [(hf r).cluster, (hf r).state]
      exact hs.alone
  linked := linked_map h.linked (fun q => (hf q).tag) (fun q => (hf q).cluster) fun r _ l _ _ hst hgoal => by
    unfold Record.goal at hgoal ⊢
    rw [(hf l).state, (hf r).state, (hf l).route, (hf r).route]
    exact ⟨hst, hgoal⟩
  accounts o := by
    have hin : ∀ st, recordsIn st o (rs.map f) = (recordsIn st o rs).map f := fun st => by
      unfold recordsIn
      rw [List.filter_map]
      refine congrArg (List.map f) (List.filter_congr fun q _ => ?_)
      simp only [Function.comp, Record.isAt, (hf q).state, (hf q).route]
    have hunits : ∀ qs : List Record, unitsIn o (qs.map f) = unitsIn o qs := fun qs => by
      unfold unitsIn
      rw [List.map_map]
      refine congrArg List.sum (List.map_congr_left fun q _ => ?_)
      simp only [Function.comp, Record.unitsAt, (hf q).route]
    have htags : ∀ qs : List Record, (qs.map f).map Record.tag = qs.map Record.tag := fun qs => by
      rw [List.map_map]
      exact List.map_congr_left fun q _ => (hf q).tag
    have hnames : ∀ {ts n qs}, Names o ts n qs → Names o ts n (qs.map f) := fun hn => ⟨hn.nodup, by rw [htags]; exact hn.tags, by rw [hunits]; exact hn.units⟩
    have ha := h.accounts o
    refine ⟨ha.committed.trans (hunits rs).symm, ?_, ?_⟩
    · rw [hin]
      exact ha.held.imp List.map_eq_nil_iff.mpr hnames
    · rw [hin]
      refine ha.waiting.imp List.map_eq_nil_iff.mpr hnames fun hone r' hr' q' hq' => ?_
      obtain ⟨r, hr, rfl⟩ := List.mem_map.mp hr'
      obtain ⟨q, hq, rfl⟩ := List.mem_map.mp hq'
      rw [(hf r).leaderTag, (hf q).leaderTag]
      exact hone r hr q hq

end Sys2Proof.Machine
end

section
/-! PROOFS. The books kept by carrying and by taking routes back: a cluster off its outlet's books, and one without a route (R39, R45, R81). -/

namespace Sys2Proof.Machine

/-! ### Accounts as a part of the table changes -/

/-- No record of a list has a route at an outlet. -/
def Absent (o : OutletNo) (rs : List Record) : Prop := ∀ r ∈ rs, r.route.map (fun x => x.outlet) ≠ some o

theorem Absent.of_free {rs : List Record} (h : ∀ r ∈ rs, r.route = none) (o : OutletNo) : Absent o rs := fun r hr => by
  rw [h r hr]
  exact Option.some_ne_none o ∘ Eq.symm

theorem Absent.of_routedAt {o j : OutletNo} {rs : List Record} (h : RoutedAt o rs) (hj : j ≠ o) : Absent j rs := fun r hr e => by
  obtain ⟨route, hroute, rfl⟩ := h r hr
  rw [hroute] at e
  exact hj (Option.some.inj e).symm

theorem Absent.recordsIn {o : OutletNo} {rs : List Record} (h : Absent o rs) (st : RecordState) : recordsIn st o rs = [] := recordsIn_eq_nil.mpr fun r hr hat => h r hr hat.2

theorem Absent.unitsIn {o : OutletNo} {rs : List Record} (h : Absent o rs) : unitsIn o rs = 0 := by
  unfold Machine.unitsIn
  rw [List.map_congr_left (g := fun _ => 0) fun r hr => ?_]
  · exact List.sum_eq_zero fun n hn => by
      obtain ⟨r, -, rfl⟩ := List.mem_map.mp hn
      rfl
  · unfold Record.unitsAt
    cases hroute : r.route with
    | none => rfl
    | some route => exact if_neg fun e => h r hr (by rw [hroute, ← e]; rfl)

theorem unitsIn_routedAt {o : OutletNo} : ∀ {rs : List Record}, RoutedAt o rs → unitsIn o rs = routeUnits rs
  | [], _ => rfl
  | r :: rest, h => by
    obtain ⟨route, hroute, ho⟩ := h r List.mem_cons_self
    have hone : r.unitsAt o = (r.route.map (·.units)).getD 0 := by
      unfold Record.unitsAt
      rw [hroute]
      exact if_pos ho
    unfold unitsIn routeUnits
    rw [List.map_cons, List.map_cons, List.sum_cons, List.sum_cons, hone]
    exact congrArg (_ + ·) (unitsIn_routedAt fun q hq => h q (List.mem_cons_of_mem r hq))

/-- A part exchanged whose records are neither FIRED nor DUE at an outlet. -/
theorem Account.Agrees.exchange {a a' : Account} {o : OutletNo} {ms ms' rest : List Record} (h : a.Agrees o (ms ++ rest)) (hcommitted : a'.committed + unitsIn o ms = a.committed + unitsIn o ms')
    (hheld : a'.held = a.held) (hwaiting : a'.waiting = a.waiting) (hm : ∀ st, st = .fired ∨ st = .due → recordsIn st o ms = [] ∧ recordsIn st o ms' = []) : a'.Agrees o (ms' ++ rest) where
  committed := by
    have hc := h.committed
    rw [unitsIn_append] at hc ⊢
    omega
  held := by
    have hh := h.held
    rw [recordsIn_append, (hm .fired (.inl rfl)).1, List.nil_append] at hh
    rw [recordsIn_append, (hm .fired (.inl rfl)).2, List.nil_append, hheld]
    exact hh
  waiting := by
    have hw := h.waiting
    rw [recordsIn_append, (hm .due (.inr rfl)).1, List.nil_append] at hw
    rw [recordsIn_append, (hm .due (.inr rfl)).2, List.nil_append, hwaiting]
    exact hw

theorem Account.Agrees.of_absent {a : Account} {o : OutletNo} {ms ms' rest : List Record} (h : a.Agrees o (ms ++ rest)) (hm : Absent o ms) (hm' : Absent o ms') : a.Agrees o (ms' ++ rest) :=
  h.exchange (by rw [hm.unitsIn, hm'.unitsIn]) rfl rfl fun st _ => ⟨hm.recordsIn st, hm'.recordsIn st⟩

/-- An account as a booked cluster leaves it: its units given back and its request cancelled (R39, R81, R121). -/
def Account.left (a : Account) (t : Tag) (units : Nat) : Account where
  committed := a.committed - units
  held := a.held
  waiting := a.waiting.filter (fun w => decide (t ∉ w.1))

theorem Outlet.account_without (x : Outlet) (t : Tag) (n : Nat) : (x.without t n).account = x.account.left t n := by
  have hwaiting : (x.without t n).account.waiting = (x.account.left t n).waiting := by
    unfold Outlet.without Outlet.account Account.left Outlet.requestMembers
    dsimp only
    cases hreq : x.request with
    | none => rfl
    | some w =>
      cases w with
      | test => rfl
      | deadline ms late units =>
        dsimp only
        by_cases h : t ∈ ms <;> simp [h, Option.filter]
  exact congrArg (fun w => ({ committed := x.committed - n, held := x.strokeSet, waiting := w } : Account)) hwaiting

section
variable {ms ms' rest : List Record} {acc acc' : OutletNo → Account}

/-- What the records that take the place of a part must be. -/
structure Replaces (ms ms' : List Record) : Prop where
  slots : (ms'.map (fun r => r.slot)).Sublist (ms.map (fun r => r.slot))
  lead : ∀ r' ∈ ms', ∃ r ∈ ms, r'.leaderTag = r.leaderTag ∨ r'.leaderTag = r.tag
  stated : ∀ r ∈ ms', r.Stated
  linked : ∀ r ∈ ms', r.Linked ms'

/-- A part without routes exchanged for another. -/
theorem Books.exchange_free (h : Books (ms ++ rest) acc) (ha : Separate ms rest) (hr : Replaces ms ms') (hfree : ∀ r ∈ ms, r.route = none) (hfree' : ∀ r ∈ ms', r.route = none) :
    Books (ms' ++ rest) acc :=
  h.exchange_within ha hr.slots hr.lead hr.stated hr.linked fun o => (h.accounts o).of_absent (.of_free hfree o) (.of_free hfree' o)

/-- A ROUTED or DUE cluster exchanged for records without routes. -/
theorem Books.leave (h : Books (ms ++ rest) acc) {o : OutletNo} {t : Tag} (hlead : ∀ r ∈ ms, r.leaderTag = t) (hrest : ∀ r ∈ rest, r.leaderTag ≠ t) (hne : ms ≠ []) (hrouted : RoutedAt o ms)
    (hwaits : ∀ r ∈ ms, r.state = .routed ∨ r.state = .due) (hr : Replaces ms ms') (hfree' : ∀ r ∈ ms', r.route = none)
    (hacc : ∀ j, acc' j = if j = o then (acc o).left t (routeUnits ms) else acc j) : Books (ms' ++ rest) acc' := by
  have ha : Separate ms rest := fun r hr q hq e => hrest q hq (e.symm.trans (hlead r hr))
  refine h.exchange_within ha hr.slots hr.lead hr.stated hr.linked fun j => ?_
  rw [hacc j]
  by_cases hj : j = o
  · subst hj
    rw [if_pos rfl]
    have hagrees := h.accounts j
    obtain ⟨r, hr⟩ := List.exists_mem_of_ne_nil ms hne
    obtain ⟨l, hl, hlt, hll, -⟩ := h.leader (List.mem_append_left rest hr)
    rw [hlead r hr] at hlt hll
    have hlms : l ∈ ms := (List.mem_append.mp hl).resolve_right fun hl => hrest l hl hll
    have hnotfired : recordsIn .fired j ms = [] := recordsIn_eq_nil.mpr fun q hq hat => by
      obtain hst | hst := hwaits q hq <;> rw [hat.1] at hst <;> cases hst
    have hunits := unitsIn_routedAt hrouted
    have hfree := Absent.of_free hfree' j
    refine ⟨?_, ?_, ?_⟩
    · have hc := hagrees.committed
      show (acc j).committed - _ = _
      rw [unitsIn_append] at hc ⊢
      rw [hfree.unitsIn, hc, hunits]
      omega
    · have hh := hagrees.held
      rw [recordsIn_append, hnotfired, List.nil_append] at hh
      rw [recordsIn_append, hfree.recordsIn, List.nil_append]
      exact hh
    · have hw := hagrees.waiting
      rw [recordsIn_append] at hw
      rw [recordsIn_append, hfree.recordsIn, List.nil_append]
      unfold Account.left
      dsimp only
      cases hwait : (acc j).waiting with
      | none =>
        rw [hwait] at hw
        exact (List.append_eq_nil_iff.mp hw).2
      | some w =>
        rw [hwait] at hw
        obtain ⟨hn, hone⟩ := hw
        have hldue : t ∈ w.1 ↔ l.state = .due := by
          rw [hn.tags, ← hlt]
          refine ⟨fun hin => ?_, fun hst => List.mem_map_of_mem (List.mem_append_left _ (mem_recordsIn.mpr ⟨hlms, hst, ?_⟩))⟩
          · obtain ⟨q, hq, hqt⟩ := List.mem_map.mp hin
            rw [← recordsIn_append] at hq
            obtain ⟨hq, hat⟩ := mem_recordsIn.mp hq
            rw [h.eq_of_tag hl hq hqt] at hat
            exact hat.1
          · obtain ⟨route, hroute, ho⟩ := hrouted l hlms
            rw [hroute, ← ho]
            rfl
        by_cases hin : t ∈ w.1
        · have hnone : recordsIn .due j rest = [] := List.eq_nil_iff_forall_not_mem.mpr fun q hq => by
            have hll' : l ∈ recordsIn .due j ms := mem_recordsIn.mpr ⟨hlms, hldue.mp hin, by
              obtain ⟨route, hroute, ho⟩ := hrouted l hlms
              rw [hroute, ← ho]
              rfl⟩
            exact hrest q (mem_recordsIn.mp hq).1 ((hone q (List.mem_append_right _ hq) l (List.mem_append_left _ hll')).trans hll)
          rw [Option.filter_some, if_neg (by simpa using hin)]
          exact hnone
        · have hnone : recordsIn .due j ms = [] := recordsIn_eq_nil.mpr fun q hq hat =>
            hin (hldue.mpr ((h.same (List.mem_append_left rest hq) hl (hll.trans (hlead q hq).symm)).1.trans hat.1))
          rw [hnone, List.nil_append] at hn hone
          rw [Option.filter_some, if_pos (by simpa using hin)]
          exact ⟨hn, hone⟩
  · rw [if_neg hj]
    exact (h.accounts j).of_absent (.of_routedAt hrouted hj) (.of_free hfree' j)

end

/-! ### A cluster in the table -/

/-- The records of the other clusters. -/
def State.othersOf (s : State) (t : Tag) : List Record := s.tc.records.filter (fun r => !(r.leaderTag == t))

theorem State.parts_perm (s : State) (t : Tag) : s.tc.records.Perm (s.membersOf t ++ s.othersOf t) := (List.filter_append_perm _ _).symm

theorem State.mem_othersOf {s : State} {t : Tag} {r : Record} : r ∈ s.othersOf t ↔ r ∈ s.tc.records ∧ r.leaderTag ≠ t := by
  simp [State.othersOf]

theorem State.parts_apart (s : State) (t : Tag) : Separate (s.membersOf t) (s.othersOf t) := fun _ hr _ hq e =>
  (State.mem_othersOf.mp hq).2 (e.symm.trans (State.mem_membersOf.mp hr).2)

/-- Two parts of a table share no tag (R23). -/
theorem tags_apart {ms rest : List Record} (h : ((ms ++ rest).map (fun r => r.slot)).Nodup) {q : Record} (hq : q ∈ rest) : q.tag ∉ ms.map Record.tag := fun hin => by
  obtain ⟨r, hr, ht⟩ := List.mem_map.mp hin
  rw [List.map_append] at h
  exact (List.disjoint_of_nodup_append h) (List.mem_map_of_mem hr) (List.mem_map.mpr ⟨q, hq, (congrArg Tag.slot ht).symm⟩)

/-- One part of the table rewritten. -/
theorem State.withEach_perm {s : State} (hs : s.tableLaw) {ms rest : List Record} (hp : s.tc.records.Perm (ms ++ rest)) (f : Record → Record) :
    (s.withEach ms f).tc.records.Perm (ms.map f ++ rest) := by
  have hnodup : ((ms ++ rest).map (fun r => r.slot)).Nodup := (hp.map _).nodup_iff.mp hs
  refine (hp.map _).trans (List.Perm.of_eq ?_)
  rw [List.map_append]
  refine congrArg₂ (· ++ ·) (List.map_congr_left fun q hq => if_pos (List.mem_map_of_mem hq)) ?_
  exact (List.map_congr_left fun q hq => if_neg (tags_apart hnodup hq)).trans (List.map_id _)

theorem State.booksLaw.books {s : State} (h : s.booksLaw) {ms rest : List Record} (hp : s.tc.records.Perm (ms ++ rest)) : Books (ms ++ rest) s.accounts := (s.booksLaw_iff.mp h).perm hp

/-- A state whose table is, in some order, one that agrees with its accounts. -/
theorem State.booksLaw_of_perm {s : State} {rs : List Record} {acc : OutletNo → Account} (h : Books rs acc) (hp : s.tc.records.Perm rs) (hacc : ∀ o, s.accounts o = acc o) : s.booksLaw := by
  rw [State.booksLaw_iff, funext hacc]
  exact h.perm hp.symm

/-! ### Retirement and the accounts -/

theorem Outlet.account_renameLatest (x : Outlet) (old lead : Tag) : (x.renameLatest old lead).account = x.account := by
  rw [Outlet.renameLatest_eq]
  rfl

theorem State.accounts_modOutlet {f : Outlet → Outlet} (s : State) (o : OutletNo) (hf : ∀ x, (f x).account = x.account) : (s.modOutlet o f).accounts = s.accounts := by
  funext j
  show ((s.modOutlet o f).outlet j).account = _
  rw [State.outlet_modOutlet]
  split
  · next e =>
    subst e
    exact hf _
  · rfl

theorem State.accounts_drainCheck (s : State) : s.drainCheck.accounts = s.accounts := by
  rw [State.drainCheck_rest]
  rfl

theorem State.accounts_leaveCluster (s : State) (r : Record) : (s.leaveCluster r).accounts = s.accounts := by
  unfold State.leaveCluster
  split
  · rfl
  · rfl
  · cases r.route with
    | none => rfl
    | some route => exact State.accounts_modOutlet _ _ fun x => x.account_renameLatest _ _

/-- A retirement leaves every account: what it is due is given back by what retires. -/
theorem State.accounts_retire (s : State) (c : RetireOutcome) (t : Tag) : (s.retire c t).accounts = s.accounts := by
  unfold State.retire
  cases s.find t with
  | none => rfl
  | some r => exact (State.accounts_drainCheck _).trans (State.accounts_leaveCluster _ r)

theorem State.accounts_retireAll (c : RetireOutcome) : ∀ (ts : List Tag) (s : State), (s.retireAll c ts).accounts = s.accounts
  | [], _ => rfl
  | t :: rest, s => (State.accounts_retireAll c rest (s.retire c t)).trans (s.accounts_retire c t)

/-! ### Taking a cluster's routes back -/

theorem State.accounts_unbook {s v : State} {o : OutletNo} {t : Tag} {n : Nat} (hv : v.outlets = (s.withOutlet o ((s.outlet o).without t n)).outlets) (j : OutletNo) :
    v.accounts j = if j = o then (s.accounts o).left t n else s.accounts j := by
  have hout : v.outlet j = (s.setOutlet o ((s.outlet o).without t n)).outlet j := by
    unfold State.outlet
    rw [hv]
    rfl
  unfold State.accounts
  rw [hout, State.outlet_setOutlet]
  by_cases hj : o = j
  · rw [if_pos hj, if_pos hj.symm, Outlet.account_without]
  · rw [if_neg hj, if_neg (Ne.symm hj)]

theorem State.BookedAt.lead {s : State} {o : OutletNo} {t : Tag} {ms : List Record} (h : s.BookedAt o t ms) {r : Record} (hr : r ∈ ms) : r.leaderTag = t :=
  (State.mem_membersOf.mp (h.members ▸ hr)).2

/-- A ROUTED or DUE cluster taken back from its outlet keeps the books: it is PENDING without routes (R45, R81). -/
theorem State.booksLaw.withdrawRoute {s : State} (hs : s.booksLaw) {r : Record} (hr : r ∈ s.tc.records) (hst : r.state = .routed ∨ r.state = .due) (mark : Flags → Flags) :
    (s.withdrawRoute r.leaderTag mark).booksLaw := by
  obtain ⟨route, hroute⟩ : ∃ route, r.route = some route := by
    refine Option.ne_none_iff_exists'.mp ((hs.routes r hr).mpr ?_)
    obtain h | h := hst
    · exact .inl h
    · exact .inr (.inl h)
  have hbooked := hs.clustered.booked hr hst hroute
  have hperm := s.parts_perm r.leaderTag
  have hbooks := hs.books hperm
  have hwith := State.withEach_perm hs.slots hperm (Record.unrouted mark)
  rw [State.withdrawRoute_booked hs.slots hbooked]
  refine State.booksLaw_of_perm (hbooks.leave (ms' := (s.membersOf r.leaderTag).map (Record.unrouted mark)) (fun q hq => hbooked.lead hq) (fun q hq => (State.mem_othersOf.mp hq).2)
    hbooked.nonempty hbooked.routed hbooked.waits ⟨?_, ?_, ?_, ?_⟩ ?_ (State.accounts_unbook rfl)) hwith fun _ => rfl
  · rw [List.map_map]
    exact List.Sublist.refl _
  · intro q' hq'
    obtain ⟨q, hq, rfl⟩ := List.mem_map.mp hq'
    exact ⟨q, hq, .inl rfl⟩
  · intro q' hq'
    obtain ⟨q, hq, rfl⟩ := List.mem_map.mp hq'
    have hq' := List.mem_append_left (s.othersOf r.leaderTag) hq
    have hcarry := (hbooks.stated q hq').carry
    have hnot : q.carry = none := by
      by_contra hne
      have hst' := hcarry.mp hne
      obtain h | h := hbooked.waits q hq <;> rw [h] at hst' <;> cases hst'
    exact ⟨by simp [Record.unrouted], by simp [Record.unrouted, hnot], fun h => by cases h⟩
  · exact linked_map (fun q hq => hbooks.linked_left (s.parts_apart r.leaderTag) hq) (fun _ => rfl) (fun _ => rfl) fun _ _ _ _ _ _ _ => ⟨rfl, rfl⟩
  · intro q' hq'
    obtain ⟨q, -, rfl⟩ := List.mem_map.mp hq'
    rfl

/-! ### Carrying a cluster -/

theorem State.carryCluster_retireAll {s : State} (hs : s.tableLaw) (t : Tag) (why : CarryReason) :
    s.carryCluster why t = (((s.membersOf t).foldl State.giveBack (s.detach t)).withEach (s.membersOf t) (s.ride why)).retireAll .ended (s.endedOf (s.membersOf t)) := by
  obtain ⟨hbpu, hparams⟩ := s.detach_bpu_params t
  have hmem : ∀ r ∈ s.membersOf t, r ∈ (s.detach t).tc.records := fun r hr => by
    rw [State.detach_tc]
    exact (State.mem_membersOf.mp hr).1
  have hends : (s.detach t).endedOf (s.membersOf t) = s.endedOf (s.membersOf t) := by
    unfold State.endedOf State.endPoint
    rw [hbpu, hparams]
  have hcarry := State.carryAll_eq (s := s.detach t) (by rw [State.tableLaw, State.detach_tc]; exact hs) hmem (State.membersOf_nodup hs t) why
  rw [hends, State.ride_congr hparams] at hcarry
  exact hcarry

/-- Records that ride, but for those that end at once, in the place of a part (R39, R41). -/
theorem replaces_ride {s : State} {why : CarryReason} {ms : List Record} (p : Record → Bool) : Replaces ms ((ms.map (s.ride why)).filter p) where
  slots := by
    have hslots : (ms.map (s.ride why)).map (fun r => r.slot) = ms.map (fun r => r.slot) := List.map_map
    rw [← hslots]
    exact List.filter_sublist.map _
  lead r' hr' := by
    obtain ⟨r, hr, rfl⟩ := List.mem_map.mp (List.mem_filter.mp hr').1
    exact ⟨r, hr, .inr rfl⟩
  stated r' hr' := by
    obtain ⟨r, -, rfl⟩ := List.mem_map.mp (List.mem_filter.mp hr').1
    exact ⟨by simp [State.ride], by simp [State.ride], fun _ => rfl⟩
  linked r' hr' := by
    obtain ⟨r, -, rfl⟩ := List.mem_map.mp (List.mem_filter.mp hr').1
    exact Record.linked_of_none rfl _

/-- The table after records of a part ride and those that are reached end. -/
theorem State.rode_perm {s v : State} (hs : s.tableLaw) {ms rest : List Record} (hp : s.tc.records.Perm (ms ++ rest)) (why : CarryReason) (hv : v.tc.records = s.tc.records) :
    ((v.withEach ms (s.ride why)).retireAll .ended (s.endedOf ms)).tc.records.Perm ((ms.map (s.ride why)).filter (fun r => !(s.endedOf ms).contains r.tag) ++ rest) := by
  have hvs : v.tableLaw := by
    rw [State.tableLaw, hv]
    exact hs
  have hperm := State.withEach_perm hvs (hv ▸ hp) (s.ride why)
  have hnodup : ((ms ++ rest).map (fun r => r.slot)).Nodup := (hp.map _).nodup_iff.mp hs
  have hended : ∀ t ∈ s.endedOf ms, t ∈ ms.map Record.tag := fun t ht => by
    obtain ⟨r, hr, rfl⟩ := List.mem_map.mp ht
    exact List.mem_map_of_mem (List.mem_filter.mp hr).1
  rw [State.retireAll_unlinked_records]
  · refine (hperm.filter _).trans (List.Perm.of_eq ?_)
    rw [List.filter_append]
    refine congrArg (_ ++ ·) (List.filter_eq_self.mpr fun q hq => ?_)
    simp only [Bool.not_eq_true', List.contains_eq_mem, decide_eq_false_iff_not]
    exact fun hin => tags_apart hnodup hq (hended _ hin)
  · intro r hr ht
    obtain hr | hr := List.mem_append.mp (hperm.mem_iff.mp hr)
    · obtain ⟨q, -, rfl⟩ := List.mem_map.mp hr
      rfl
    · exact absurd (hended _ ht) (tags_apart hnodup hr)

/-- A PENDING, ROUTED or DUE cluster CARRIED keeps the books (R39). -/
theorem State.booksLaw.carryCluster {s : State} (hs : s.booksLaw) {r : Record} (hr : r ∈ s.tc.records) (hst : r.state = .pending ∨ r.state = .routed ∨ r.state = .due) (why : CarryReason) :
    (s.carryCluster why r.leaderTag).booksLaw := by
  have hperm := s.parts_perm r.leaderTag
  have hbooks := hs.books hperm
  have hfree' : ∀ q' ∈ ((s.membersOf r.leaderTag).map (s.ride why)).filter (fun q => !(s.endedOf (s.membersOf r.leaderTag)).contains q.tag), q'.route = none := fun q' hq' => by
    obtain ⟨q, -, rfl⟩ := List.mem_map.mp (List.mem_filter.mp hq').1
    rfl
  rw [State.carryCluster_retireAll hs.slots]
  obtain ⟨v, hv⟩ : ∃ v, v = (s.membersOf r.leaderTag).foldl State.giveBack (s.detach r.leaderTag) := ⟨_, rfl⟩
  have hvtc : v.tc = s.tc := by rw [hv, State.foldl_giveBack_tc, State.detach_tc]
  have hrode := State.rode_perm hs.slots hperm why (congrArg Tc.records hvtc)
  have hacc : ((v.withEach (s.membersOf r.leaderTag) (s.ride why)).retireAll .ended (s.endedOf (s.membersOf r.leaderTag))).accounts = v.accounts := State.accounts_retireAll _ _ _
  rw [← hv]
  obtain hst | hst := hst
  · have hfree := hs.free hr hst
    have hsame : v.accounts = s.accounts := by rw [hv, State.foldl_giveBack_none hfree, State.detach_free hfree]
    exact State.booksLaw_of_perm (hbooks.exchange_free (s.parts_apart r.leaderTag) (replaces_ride _) hfree hfree') hrode fun o => by rw [hacc, hsame]
  · obtain ⟨route, hroute⟩ : ∃ route, r.route = some route := by
      refine Option.ne_none_iff_exists'.mp ((hs.routes r hr).mpr ?_)
      obtain h | h := hst
      · exact .inl h
      · exact .inr (.inl h)
    have hbooked := hs.clustered.booked hr hst hroute
    rw [State.unbook_eq hbooked] at hv
    have hvo : v.outlets = (s.withOutlet route.outlet ((s.outlet route.outlet).without r.leaderTag (routeUnits (s.membersOf r.leaderTag)))).outlets := by
      rw [hv]
      rfl
    exact State.booksLaw_of_perm (hbooks.leave (fun q hq => hbooked.lead hq) (fun q hq => (State.mem_othersOf.mp hq).2) hbooked.nonempty hbooked.routed hbooked.waits (replaces_ride _) hfree'
      (State.accounts_unbook hvo)) hrode fun o => by rw [hacc]

end Sys2Proof.Machine
end

section
/-! PROOFS. The books kept by walks, fire requests, grants, re-routes and amendments (spec/03, spec/05). -/

namespace Sys2Proof.Machine

/-! ### Walks -/

/-- Changes of the table that the books do not read. -/
theorem State.booksLaw.of_same {s t : State} (hs : s.booksLaw) {f : Record → Record} (hf : ∀ q, (f q).SameBooks q) (hrec : t.tc.records = s.tc.records.map f) (hacc : t.accounts = s.accounts) :
    t.booksLaw := by
  rw [State.booksLaw_iff, hrec, hacc]
  exact Books.of_map (s.booksLaw_iff.mp hs) hf

theorem Record.SameBooks.refl (r : Record) : r.SameBooks r := ⟨rfl, rfl, rfl, rfl, rfl, rfl⟩

theorem Record.SameBooks.ite {p : Record → Bool} {f : Record → Record} (hf : ∀ q, (f q).SameBooks q) (q : Record) : (if p q then f q else q).SameBooks q := by
  split
  · exact hf q
  · exact .refl q

theorem State.booksLaw.mapRecords_same {s : State} (hs : s.booksLaw) {p : Record → Bool} {f : Record → Record} (hf : ∀ q, (f q).SameBooks q) : (s.mapRecords p f).booksLaw :=
  hs.of_same (fun q => Record.SameBooks.ite hf q) rfl rfl

theorem State.booksLaw.of_tc {s t : State} (hs : s.booksLaw) (hrec : t.tc.records = s.tc.records) (hacc : t.accounts = s.accounts) : t.booksLaw := by
  rw [State.booksLaw_iff, hrec, hacc]
  exact s.booksLaw_iff.mp hs

/-- The state of a table with one cluster's records rewritten. -/
theorem State.mapCluster_perm {s v : State} (hs : s.tableLaw) (hv : v.tc = s.tc) (t : Tag) (f : Record → Record) :
    (v.mapRecords (fun r => r.leaderTag == t) f).tc.records.Perm ((s.membersOf t).map f ++ s.othersOf t) := by
  have hvs : v.tableLaw := by
    rw [State.tableLaw, hv]
    exact hs
  have hmembers : v.membersOf t = s.membersOf t := by
    unfold State.membersOf
    rw [hv]
  have hperm := State.withEach_perm hvs (show v.tc.records.Perm (s.membersOf t ++ s.othersOf t) by rw [hv]; exact s.parts_perm t) f
  rw [State.mapRecords_leader (State.ownTags hvs t), hmembers]
  exact hperm

/-- A PENDING cluster ROUTED with its reservation (R37, R76). -/
theorem State.booksLaw.route {s : State} (hs : s.booksLaw) {r : Record} (hr : r ∈ s.tc.records) (hst : r.state = .pending) (o : OutletNo) (entry : RouteIx) (f : Pos) :
    ((s.reserve o (s.clusterWeight (s.membersOf r.leaderTag)) f r.leaderTag).routeCluster r.leaderTag o entry f).booksLaw := by
  have hbooks := hs.books (s.parts_perm r.leaderTag)
  have hfree := hs.free hr hst
  obtain ⟨g, hg⟩ : ∃ g : Record → Record, g = fun q => { q with state := .routed, route := some { outlet := o, entry := entry, firePoint := f, units := s.weight q.cls }, waypoint := some f } :=
    ⟨_, rfl⟩
  have hperm := State.mapCluster_perm hs.slots (v := s.reserve o (s.clusterWeight (s.membersOf r.leaderTag)) f r.leaderTag) rfl r.leaderTag g
  have hrouted : RoutedAt o ((s.membersOf r.leaderTag).map g) := fun q' hq' => by
    obtain ⟨q, -, rfl⟩ := List.mem_map.mp hq'
    exact ⟨_, by rw [hg], rfl⟩
  have hunits : unitsIn o ((s.membersOf r.leaderTag).map g) = s.clusterWeight (s.membersOf r.leaderTag) := by
    rw [unitsIn_routedAt hrouted, routeUnits, List.map_map, State.clusterWeight, hg]
    rfl
  refine State.booksLaw_of_perm (acc := fun j => if j = o then { s.accounts o with committed := (s.accounts o).committed + s.clusterWeight (s.membersOf r.leaderTag) } else s.accounts j)
    (hbooks.exchange_within (ms' := (s.membersOf r.leaderTag).map g) (s.parts_apart r.leaderTag) ?_ ?_ ?_ ?_ fun j => ?_) (by rw [hg] at hperm ⊢; exact hperm) fun j => ?_
  · rw [List.map_map, hg]
    exact List.Sublist.refl _
  · intro q' hq'
    obtain ⟨q, hq, rfl⟩ := List.mem_map.mp hq'
    exact ⟨q, hq, .inl (by rw [hg]; rfl)⟩
  · intro q' hq'
    obtain ⟨q, hq, rfl⟩ := List.mem_map.mp hq'
    obtain ⟨hq, ht⟩ := State.mem_membersOf.mp hq
    have hqst : q.state = .pending := (hs.clustered.same hr hq ht).1.trans hst
    have hcarry : q.carry = none := by
      by_contra hne
      have h := (hs.carries q hq).1.mp hne
      rw [hqst] at h
      cases h
    rw [hg]
    exact ⟨by simp, by simp [hcarry], fun h => by cases h⟩
  · exact linked_map (fun q hq => hbooks.linked_left (s.parts_apart r.leaderTag) hq) (fun q => by rw [hg]; rfl) (fun q => by rw [hg]) fun _ _ _ _ _ _ _ => by
      rw [hg]
      exact ⟨rfl, rfl⟩
  · have hagrees := hbooks.accounts j
    have hno : ∀ st, st = RecordState.fired ∨ st = .due → recordsIn st j ((s.membersOf r.leaderTag).map g) = [] := fun st hcase => recordsIn_eq_nil.mpr fun q' hq' hat => by
      obtain ⟨q, -, rfl⟩ := List.mem_map.mp hq'
      have h := hat.1
      rw [hg] at h
      obtain rfl | rfl := hcase <;> cases h
    have hnone := Absent.of_free hfree j
    dsimp only
    by_cases hj : j = o
    · subst hj
      rw [if_pos rfl]
      exact hagrees.exchange (by rw [hunits, hnone.unitsIn]; rfl) rfl rfl fun st hcase => ⟨hnone.recordsIn st, hno st hcase⟩
    · rw [if_neg hj]
      exact hagrees.of_absent hnone (.of_routedAt hrouted hj)
  · obtain ⟨x, hx⟩ : ∃ x : Outlet, x = { s.outlet o with
        committed := (s.outlet o).committed + s.clusterWeight (s.membersOf r.leaderTag)
        latest := some { point := f, owner := r.leaderTag } } := ⟨_, rfl⟩
    have hout : ((s.reserve o (s.clusterWeight (s.membersOf r.leaderTag)) f r.leaderTag).routeCluster r.leaderTag o entry f).outlet j = if o = j then x else s.outlet j := by
      rw [hx]
      exact State.outlet_setOutlet s o j _
    unfold State.accounts
    rw [hout, hx]
    by_cases hj : o = j
    · subst hj
      rw [if_pos rfl, if_pos rfl]
      rfl
    · rw [if_neg hj, if_neg (Ne.symm hj)]

theorem State.accounts_planCheck (s : State) (c : ClassNo) (kind : CheckKind) (entry : RouteIx) : (s.planCheck c kind entry).accounts = s.accounts := by
  unfold State.planCheck
  dsimp only
  split <;> rfl

/-- The result of a walk of a PENDING cluster keeps the books (R37, R39). -/
theorem State.booksLaw.applyWalk {s : State} (hs : s.booksLaw) {r : Record} (hr : r ∈ s.tc.records) (hst : r.state = .pending) (c : ClassNo) (result : WalkEnd) :
    (s.applyWalk r.leaderTag c result).booksLaw := by
  cases result with
  | accepted o i f => exact hs.route hr hst o i f
  | chainEnd => exact hs.carryCluster hr (.inl hst) .chainEnd
  | noChain => exact hs.carryCluster hr (.inl hst) .noChain
  | planCheck kind i =>
    have htc := s.planCheck_tc c kind i
    exact (hs.of_tc (congrArg Tc.records htc) (s.accounts_planCheck c kind i)).carryCluster (by rw [htc]; exact hr) (.inl hst) .planCheck

/-- A walk of a PENDING cluster keeps the books (R62, R63). -/
theorem State.booksLaw.walk {s : State} (hs : s.booksLaw) {r : Record} (hr : r ∈ s.tc.records) (hst : r.state = .pending) (kind : WalkKind) : (s.walk kind r.leaderTag).booksLaw := by
  unfold State.walk
  cases s.find r.leaderTag with
  | none => exact hs
  | some lead =>
    dsimp only
    obtain ⟨last, result, hwalk⟩ : ∃ last result, s.walkChain lead.stamp (s.membersOf r.leaderTag)
        (if ((s.sampleAudit kind (s.classEntry lead.cls)).2 || kind != .decision && lead.flags.audit) && (s.classEntry lead.cls).auditHead.isSome then (s.classEntry lead.cls).auditHead
          else (s.classEntry lead.cls).head) = (result, last) := ⟨_, _, rfl⟩
    obtain ⟨g, hg⟩ : ∃ g, g = Record.walked last ((s.sampleAudit kind (s.classEntry lead.cls)).2 && (s.classEntry lead.cls).auditHead.isSome) := ⟨_, rfl⟩
    have hgs : ∀ q, (g q).SameBooks q := fun q => by
      rw [hg]
      exact ⟨rfl, rfl, rfl, rfl, rfl, rfl⟩
    rw [hwalk, ← hg]
    have hsampled : (s.withSampler (s.sampleAudit kind (s.classEntry lead.cls)).1).booksLaw := hs.of_tc rfl rfl
    have hafter := hsampled.mapRecords_same (p := fun q => q.leaderTag == r.leaderTag) hgs
    have hwalked := hafter.applyWalk (r := g r) (List.mem_map.mpr ⟨r, hr, if_pos (beq_self_eq_true _)⟩) ((hgs r).state.trans hst) lead.cls result
    rw [(hgs r).leaderTag] at hwalked
    exact hwalked

theorem State.booksLaw.decisionWalk {s : State} (hs : s.booksLaw) {r : Record} (hr : r ∈ s.tc.records) (hst : r.state = .pending) : (s.decisionWalk r.leaderTag).booksLaw := hs.walk hr hst .decision

theorem State.booksLaw.decideIfReached {s : State} (hs : s.booksLaw) {r : Record} (hr : r ∈ s.tc.records) (hself : r.leaderTag = r.tag) : (s.decideIfReached r.tag).booksLaw := by
  unfold State.decideIfReached
  rw [State.find_tag hs.slots hr]
  dsimp only
  cases r.waypoint with
  | none => exact hs
  | some w =>
    dsimp only
    split
    · next h =>
      rw [← hself]
      exact hs.decisionWalk hr h.1
    · exact hs

/-! ### Re-routes and amendments -/

theorem State.mem_withdrawRoute {s : State} {r : Record} (hr : r ∈ s.tc.records) (mark : Flags → Flags) : r.unrouted mark ∈ (s.withdrawRoute r.leaderTag mark).tc.records := by
  rw [State.withdrawRoute_records]
  exact List.mem_map.mpr ⟨r, hr, if_pos (beq_self_eq_true _)⟩

/-- A re-route keeps the books (R81). -/
theorem State.booksLaw.reroute {s : State} (hs : s.booksLaw) {r : Record} (hr : r ∈ s.tc.records) (hst : r.state = .routed ∨ r.state = .due) : (s.reroute r.leaderTag).booksLaw :=
  (hs.withdrawRoute hr hst _).walk (r := r.unrouted _) (State.mem_withdrawRoute hr _) rfl .reroute

/-- An amendment keeps the books (R44, R45). -/
theorem State.booksLaw.amend {s t : State} (hs : s.booksLaw) {r : Record} (hr : r ∈ s.tc.records) {a : Amendment} (h : s.amend r a = some t) : t.booksLaw := by
  have hwrite : ∀ q, (a.apply q).SameBooks q := fun q => ⟨rfl, rfl, rfl, rfl, rfl, rfl⟩
  unfold State.amend at h
  dsimp only at h
  split at h
  · obtain rfl := Option.some.inj h
    exact hs.mapRecords_same hwrite
  · obtain rfl := Option.some.inj h
    exact hs.mapRecords_same hwrite
  · next route hst hroute =>
    split at h
    · obtain rfl := Option.some.inj h
      have hbooks := (hs.withdrawRoute hr (.inl hst) id).mapRecords_same (p := fun x => x.tag == r.tag) hwrite
      have hself : (a.apply (r.unrouted id)).leaderTag = r.leaderTag := (hwrite _).leaderTag
      have hwalked := hbooks.walk (r := a.apply (r.unrouted id)) (List.mem_map.mpr ⟨r.unrouted id, State.mem_withdrawRoute hr id, if_pos (beq_self_eq_true _)⟩) rfl .amendment
      rw [hself] at hwalked
      exact hwalked
    · cases h
  · cases h

end Sys2Proof.Machine
end

section
/-! PROOFS. The books kept by fire requests, grants, confirms, misses and lost sets (R29, R38, R118, R126 to R128). -/

namespace Sys2Proof.Machine

/-! ### Records that become DUE or FIRED -/

theorem recordsIn_all {st : RecordState} {o : OutletNo} {rs : List Record} (h : ∀ r ∈ rs, r.isAt st o) : recordsIn st o rs = rs :=
  List.filter_eq_self.mpr fun r hr => decide_eq_true (h r hr)

theorem recordsIn_other {st st' : RecordState} {o : OutletNo} {rs : List Record} (h : ∀ r ∈ rs, r.state = st') (hne : st' ≠ st) : recordsIn st o rs = [] :=
  recordsIn_eq_nil.mpr fun r hr hat => hne ((h r hr).symm.trans hat.1)

/-- Records in another state, with their routes. -/
def becomeAll (st : RecordState) (w : Option Pos) (rs : List Record) : List Record := rs.map (Record.become st w)

theorem mem_becomeAll {st : RecordState} {w : Option Pos} {rs : List Record} {q : Record} (h : q ∈ becomeAll st w rs) : ∃ r ∈ rs, r.become st w = q := List.mem_map.mp h

theorem becomeAll_state {st : RecordState} {w : Option Pos} {rs : List Record} : ∀ q ∈ becomeAll st w rs, q.state = st := fun _ h => by
  obtain ⟨r, -, rfl⟩ := mem_becomeAll h
  rfl

theorem unitsIn_becomeAll (o : OutletNo) (st : RecordState) (w : Option Pos) (rs : List Record) : unitsIn o (becomeAll st w rs) = unitsIn o rs := congrArg List.sum List.map_map

theorem tags_becomeAll (st : RecordState) (w : Option Pos) (rs : List Record) : (becomeAll st w rs).map Record.tag = rs.map Record.tag := List.map_map

theorem Names.becomeAll {o : OutletNo} {ts : List Tag} {n : Nat} {rs : List Record} (h : Names o ts n rs) (st : RecordState) (w : Option Pos) : Names o ts n (becomeAll st w rs) :=
  ⟨h.nodup, by rw [tags_becomeAll]; exact h.tags, by rw [unitsIn_becomeAll]; exact h.units⟩

/-- Clusters whose records go to a state with routes together. -/
theorem replaces_become {ms rest : List Record} {acc : OutletNo → Account} (h : Books (ms ++ rest) acc) (ha : Separate ms rest) {st : RecordState} (w : Option Pos)
    (hst : st = .due ∨ st = .fired) (hms : ∀ r ∈ ms, r.state = .routed ∨ r.state = .due) : Replaces ms (becomeAll st w ms) where
  slots := by
    unfold becomeAll
    rw [List.map_map]
    exact List.Sublist.refl _
  lead q hq := by
    obtain ⟨r, hr, rfl⟩ := mem_becomeAll hq
    exact ⟨r, hr, .inl rfl⟩
  stated q hq := by
    obtain ⟨r, hr, rfl⟩ := mem_becomeAll hq
    have hs := h.stated r (List.mem_append_left rest hr)
    have hroute : r.route ≠ none := by
      refine hs.route.mpr ?_
      obtain h | h := hms r hr
      · exact .inl h
      · exact .inr (.inl h)
    have hcarry : r.carry = none := by
      by_contra hne
      have hc := hs.carry.mp hne
      obtain h | h := hms r hr <;> rw [h] at hc <;> cases hc
    have hnot : st ≠ .carried := by
      obtain rfl | rfl := hst <;> exact fun h => by cases h
    exact ⟨⟨fun _ => .inr hst, fun _ => hroute⟩, ⟨fun h => absurd hcarry h, fun h => absurd h hnot⟩, fun h => absurd h hnot⟩
  linked := linked_map (fun r hr => h.linked_left ha hr) (fun _ => rfl) (fun _ => rfl) fun _ _ _ _ _ _ hgoal => ⟨rfl, hgoal⟩

/-! ### Fire requests -/

/-- A ROUTED cluster that asks for its stroke keeps the books (R29, R118). -/
theorem State.booksLaw.ask {s : State} (hs : s.booksLaw) {r : Record} (hr : r ∈ s.tc.records) (hst : r.state = .routed) {route : Route} (hroute : r.route = some route)
    (hnone : (s.outlet route.outlet).request = none) (late : Pos) :
    ((s.modOutlet route.outlet (fun x => { x with request := some (.deadline ((s.membersOf r.leaderTag).map Record.tag) late (routeUnits (s.membersOf r.leaderTag))) })).mapRecords
      (fun m => m.leaderTag == r.leaderTag) (Record.become .due none)).booksLaw := by
  have hbooks := hs.books (s.parts_perm r.leaderTag)
  have hbooked := hs.clustered.booked hr (.inl hst) hroute
  obtain ⟨x, hx⟩ : ∃ x : Outlet, x = { s.outlet route.outlet with request := some (.deadline ((s.membersOf r.leaderTag).map Record.tag) late (routeUnits (s.membersOf r.leaderTag))) } := ⟨_, rfl⟩
  have hperm := State.mapCluster_perm hs.slots (v := s.setOutlet route.outlet x) rfl r.leaderTag (Record.become .due none)
  have hall : ∀ q ∈ becomeAll .due none (s.membersOf r.leaderTag), q.isAt .due route.outlet := fun q' hq' => by
    obtain ⟨q, hq, rfl⟩ := mem_becomeAll hq'
    obtain ⟨y, hy, ho⟩ := hbooked.routed q hq
    exact ⟨rfl, by show q.route.map (fun x => x.outlet) = _; rw [hy, ← ho]; rfl⟩
  have hrouted : ∀ q ∈ s.membersOf r.leaderTag, q.state = .routed := fun q hq =>
    (hs.clustered.same hr (State.mem_membersOf.mp hq).1 (State.mem_membersOf.mp hq).2).1.trans hst
  have hwaitnone : (s.accounts route.outlet).waiting = none := by
    unfold State.accounts Outlet.account
    rw [hnone]
  rw [State.modOutlet_eq, ← hx]
  refine State.booksLaw_of_perm (acc := fun j => if j = route.outlet then { s.accounts route.outlet with waiting := some ((s.membersOf r.leaderTag).map Record.tag, routeUnits (s.membersOf r.leaderTag)) }
    else s.accounts j) (hbooks.exchange_within (ms' := becomeAll .due none (s.membersOf r.leaderTag)) (s.parts_apart r.leaderTag) ?_ ?_ ?_ ?_ fun j => ?_) hperm fun j => ?_
  · exact (replaces_become hbooks (s.parts_apart _) none (.inl rfl) hbooked.waits).slots
  · exact (replaces_become hbooks (s.parts_apart _) none (.inl rfl) hbooked.waits).lead
  · exact (replaces_become hbooks (s.parts_apart _) none (.inl rfl) hbooked.waits).stated
  · exact (replaces_become hbooks (s.parts_apart _) none (.inl rfl) hbooked.waits).linked
  · have hagrees := hbooks.accounts j
    dsimp only
    by_cases hj : j = route.outlet
    · subst hj
      rw [if_pos rfl]
      have hrest : recordsIn .due route.outlet (s.othersOf r.leaderTag) = [] := by
        have hw := hagrees.waiting
        rw [hwaitnone, recordsIn_append] at hw
        exact (List.append_eq_nil_iff.mp hw).2
      refine ⟨?_, ?_, ?_⟩
      · rw [unitsIn_append, unitsIn_becomeAll, ← unitsIn_append]
        exact hagrees.committed
      · have hh := hagrees.held
        rw [recordsIn_append, recordsIn_other hrouted (by simp)] at hh
        rw [recordsIn_append, recordsIn_other becomeAll_state (by simp)]
        exact hh
      · rw [recordsIn_append, recordsIn_all hall, hrest, List.append_nil]
        refine ⟨⟨State.membersOf_nodup hs.slots _, fun t => by rw [tags_becomeAll], ?_⟩, fun q hq p hp => ?_⟩
        · rw [unitsIn_becomeAll, unitsIn_routedAt hbooked.routed]
        · obtain ⟨q, hqm, rfl⟩ := mem_becomeAll hq
          obtain ⟨p, hpm, rfl⟩ := mem_becomeAll hp
          exact (hbooked.lead hqm).trans (hbooked.lead hpm).symm
    · rw [if_neg hj]
      refine hagrees.of_absent (.of_routedAt hbooked.routed hj) fun q' hq' => ?_
      obtain ⟨q, hq, rfl⟩ := mem_becomeAll hq'
      exact Absent.of_routedAt hbooked.routed hj q hq
  · show ((s.setOutlet route.outlet x).outlet j).account = _
    rw [State.outlet_setOutlet]
    by_cases hj : route.outlet = j
    · rw [if_pos hj, if_pos hj.symm, hx]
      rfl
    · rw [if_neg hj, if_neg (Ne.symm hj)]
      rfl

/-! ### Grants -/

theorem Outlet.requestMembers_deadline {x : Outlet} {ms : List Tag} {late : Pos} {units : Nat} (h : x.request = some (.deadline ms late units)) : x.requestMembers = ms := by
  unfold Outlet.requestMembers
  rw [h]

/-- A grant keeps the books: a deadline request's records are its outlet's stroke set (R126). -/
theorem State.booksLaw.grant {s : State} (hs : s.booksLaw) {o : OutletNo} (ho : s.canGrant o) : (s.grant o).booksLaw := by
  have hreq := ho.1
  have hset := ho.2.2
  have hrecords := State.grant_records ho
  have houtlet := State.granted_of_grant ho
  obtain ⟨w, hw⟩ := Option.ne_none_iff_exists'.mp hreq
  cases w with
  | test =>
    have hnone : (s.outlet o).requestMembers = [] := by
      unfold Outlet.requestMembers
      rw [hw]
    have hgranted : (s.outlet o).granted.account = (s.outlet o).account := by
      unfold Outlet.granted Outlet.account
      rw [hw]
    refine hs.of_tc (hrecords.trans ?_) (funext fun j => ?_)
    · simp only [hnone, List.not_mem_nil, if_false, List.map_id']
    · unfold State.accounts
      rw [houtlet]
      split
      · next e =>
        subst e
        exact hgranted
      · rfl
  | deadline ts late units =>
    have hmembers := Outlet.requestMembers_deadline hw
    have hwaiting : (s.accounts o).waiting = some (ts, units) := by
      unfold State.accounts Outlet.account
      rw [hw]
    have hheld : (s.accounts o).held = none := hset
    obtain ⟨ms, hms⟩ : ∃ ms, ms = s.tc.records.filter (fun r => ts.contains r.tag) := ⟨_, rfl⟩
    obtain ⟨rest, hrest⟩ : ∃ rest, rest = s.tc.records.filter (fun r => !ts.contains r.tag) := ⟨_, rfl⟩
    have hparts : s.tc.records.Perm (ms ++ rest) := by
      rw [hms, hrest]
      exact (List.filter_append_perm _ _).symm
    have hin : ∀ r ∈ s.tc.records, r.tag ∈ ts ↔ r.isAt .due o := fun r hr => by
      rw [← hmembers]
      refine ⟨fun h => ?_, hs.due_requestMembers hr⟩
      obtain ⟨q, hq, ht, hat⟩ := hs.requestMembers_due h
      rw [State.eq_of_tag hs.slots hr hq ht] at hat
      exact hat
    have hmem : ∀ r ∈ ms, r ∈ s.tc.records ∧ r.isAt .due o := fun r hr => by
      rw [hms, List.mem_filter, List.contains_iff_mem] at hr
      exact ⟨hr.1, (hin r hr.1).mp hr.2⟩
    have hout : ∀ r ∈ rest, r ∈ s.tc.records ∧ ¬r.isAt .due o := fun r hr => by
      rw [hrest, List.mem_filter, Bool.not_eq_true', List.contains_eq_mem, decide_eq_false_iff_not] at hr
      exact ⟨hr.1, fun h => hr.2 ((hin r hr.1).mpr h)⟩
    have hbooks := hs.books hparts
    have hsep : Separate ms rest := fun r hr q hq e => (hout q hq).2 ((hs.clustered.isAt (hmem r hr).1 (hout q hq).1 e.symm).mpr (hmem r hr).2)
    have hreplaces := replaces_become hbooks hsep none (.inr rfl) fun r hr => .inr (hmem r hr).2.1
    have hduems : recordsIn .due o ms = ms := recordsIn_all fun r hr => (hmem r hr).2
    have hduerest : recordsIn .due o rest = [] := recordsIn_eq_nil.mpr fun r hr => (hout r hr).2
    have hperm : (s.grant o).tc.records.Perm (becomeAll .fired none ms ++ rest) := by
      rw [hrecords, hmembers]
      refine (hparts.map _).trans (List.Perm.of_eq ?_)
      rw [List.map_append]
      refine congrArg₂ (· ++ ·) (List.map_congr_left fun r hr => if_pos ((hin r (hmem r hr).1).mpr (hmem r hr).2)) ?_
      exact (List.map_congr_left fun r hr => if_neg fun h => (hout r hr).2 ((hin r (hout r hr).1).mp h)).trans (List.map_id _)
    refine State.booksLaw_of_perm (acc := fun j => if j = o then { s.accounts o with held := some { members := ts, units := units }, waiting := none } else s.accounts j)
      (hbooks.exchange_within hsep hreplaces.slots hreplaces.lead hreplaces.stated hreplaces.linked fun j => ?_) hperm fun j => ?_
    · have hagrees := hbooks.accounts j
      dsimp only
      by_cases hj : j = o
      · subst hj
        rw [if_pos rfl]
        refine ⟨?_, ?_, ?_⟩
        · rw [unitsIn_append, unitsIn_becomeAll, ← unitsIn_append]
          exact hagrees.committed
        · have hh := hagrees.held
          have hw := hagrees.waiting
          rw [hheld, recordsIn_append] at hh
          rw [hwaiting, recordsIn_append, hduems, hduerest, List.append_nil] at hw
          rw [recordsIn_append, recordsIn_all fun q hq => ?_, (List.append_eq_nil_iff.mp hh).2, List.append_nil]
          · exact hw.1.becomeAll .fired none
          · obtain ⟨r, hr, rfl⟩ := mem_becomeAll hq
            exact ⟨rfl, (hmem r hr).2.2⟩
        · show recordsIn .due j _ = []
          rw [recordsIn_append, recordsIn_other becomeAll_state (by simp), hduerest, List.append_nil]
      · rw [if_neg hj]
        have habsent : Absent j ms := fun r hr e => hj (Option.some.inj ((hmem r hr).2.2.symm.trans e)).symm
        refine hagrees.of_absent habsent fun q hq => ?_
        obtain ⟨r, hr, rfl⟩ := mem_becomeAll hq
        exact habsent r hr
    · unfold State.accounts
      rw [houtlet]
      by_cases hj : o = j
      · rw [if_pos hj, if_pos hj.symm]
        unfold Outlet.granted Outlet.account
        rw [hw]
      · rw [if_neg hj, if_neg (Ne.symm hj)]

theorem State.booksLaw.grantUpTo : ∀ (n : Nat) {s : State}, s.booksLaw → (s.grantUpTo n).booksLaw
  | 0, _, hs => hs
  | n + 1, s, hs => by
    unfold State.grantUpTo
    split
    · exact hs
    · split
      · exact hs
      · next o ho => exact State.booksLaw.grantUpTo n (hs.grant ((Outlet.eligible_iff s o).mp (State.pickGrant_eligible ho)))

theorem State.booksLaw.grantDecision {s : State} (hs : s.booksLaw) : s.grantDecision.booksLaw := .grantUpTo 16 hs

/-! ### Fire points, late limits and end points -/

theorem State.booksLaw.carryMember {s : State} (hs : s.booksLaw) {t : Tag} {r : Record} (hr : r ∈ s.membersOf t) (hst : r.state = .pending ∨ r.state = .routed ∨ r.state = .due) (why : CarryReason) :
    (s.carryCluster why t).booksLaw := by
  obtain ⟨hlive, rfl⟩ := State.mem_membersOf.mp hr
  exact hs.carryCluster hlive hst why

/-- A ROUTED cluster at its fire point keeps the books (R29, R119). -/
theorem State.booksLaw.fireCluster {s : State} (hs : s.booksLaw) {t : Tag} (h : ∃ r ∈ s.membersOf t, r.state = .routed) : (s.fireCluster t).booksLaw := by
  obtain ⟨q, hq, hst⟩ := h
  obtain ⟨hq, hqt⟩ := State.mem_membersOf.mp hq
  unfold State.fireCluster
  cases hm : s.membersOf t with
  | nil => exact hs
  | cons r rest =>
    have hrm : r ∈ s.membersOf t := hm ▸ List.mem_cons_self
    obtain ⟨hr, hrt⟩ := State.mem_membersOf.mp hrm
    have hrst : r.state = .routed := (hs.clustered.same hq hr (hrt.trans hqt.symm)).1.trans hst
    dsimp only
    cases hroute : r.route with
    | none => exact hs
    | some route =>
      dsimp only
      cases hreq : (s.outlet route.outlet).request with
      | some w => exact (hs.of_tc (t := s.countOutlet route.outlet .abandoned 1) rfl rfl).carryMember hrm (.inr (.inl hrst)) .paddleBusy
      | none =>
        subst hrt
        have hasked := hs.ask hr hrst hroute hreq (plus route.firePoint (s.outlet route.outlet).fields.lateTolerance)
        rw [hm] at hasked
        have hlate : ∀ w : Option Pos, ∀ u : State, u.booksLaw → (u.mapRecords (fun m => m.leaderTag == r.leaderTag && m.state == .due) (Record.become .due w)).booksLaw := fun w u hu => by
          refine hu.of_same (f := fun m => if (m.leaderTag == r.leaderTag && m.state == .due) = true then m.become .due w else m) (fun m => ?_) rfl rfl
          split
          · next hdue => exact ⟨rfl, rfl, (by simpa using hdue : _ ∧ m.state = .due).2.symm, rfl, rfl, rfl⟩
          · exact .refl m
        refine hlate _ _ ?_
        split
        · exact State.booksLaw.grantDecision hasked
        · exact hasked

/-- A DUE cluster at its late limit keeps the books (R119). -/
theorem State.booksLaw.abandonLate {s : State} (hs : s.booksLaw) {t : Tag} (h : ∃ r ∈ s.membersOf t, r.state = .due) : (s.abandonLate t).booksLaw := by
  obtain ⟨q, hq, hst⟩ := h
  unfold State.abandonLate
  split
  · exact hs
  · next r rest hm =>
    split
    · exact hs
    · next route _ => exact (hs.of_tc (t := s.countOutlet route.outlet .abandoned 1) rfl rfl).carryMember hq (.inr (.inr hst)) .fireLate

/-- A CARRIED record at its end point keeps the books (R41). -/
theorem State.booksLaw.retireEnded {s : State} (hs : s.booksLaw) {t : Tag} (h : ∃ r ∈ s.membersOf t, r.state = .carried) : (s.retire .ended t).booksLaw := by
  obtain ⟨r, hm, hst⟩ := h
  obtain ⟨hr, ht⟩ := State.mem_membersOf.mp hm
  have hc := (hs.carries r hr).2 hst
  have hself : r.tag = t := (Record.leaderTag_of_leads (Record.leads_of_none hc)).symm.trans ht
  clear hm
  subst hself
  have hfree : r.route = none := by
    by_contra hne
    have h := (hs.routes r hr).mp hne
    rw [hst] at h
    simp at h
  obtain ⟨rest, hrest⟩ : ∃ rest, rest = s.tc.records.filter (fun q => q.tag != r.tag) := ⟨_, rfl⟩
  have hparts : s.tc.records.Perm ([r] ++ rest) := by
    rw [hrest, ← State.filter_tag hs.slots hr]
    exact (List.filter_append_perm _ _).symm
  have hbooks := hs.books hparts
  have hsep : Separate [r] rest := fun q hq p hp e => by
    rw [List.mem_singleton.mp hq, ht] at e
    rw [hrest] at hp
    obtain ⟨hp, hne⟩ := List.mem_filter.mp hp
    have hmem := hs.members_alone hr hc
    have hpm : p ∈ s.membersOf r.tag := State.mem_membersOf.mpr ⟨hp, e.symm⟩
    rw [hmem, List.mem_singleton] at hpm
    exact (bne_iff_ne.mp hne) (congrArg Record.tag hpm)
  refine State.booksLaw_of_perm (hbooks.exchange_free (ms' := []) hsep ⟨List.nil_sublist _, fun _ h => (by cases h), fun _ h => (by cases h), fun _ h => (by cases h)⟩
    (fun q hq => List.mem_singleton.mp hq ▸ hfree) fun _ h => by cases h) ?_ fun o => congrFun (s.accounts_retire .ended r.tag) o
  rw [State.retire_unlinked hs.slots hr hc, State.drainCheck_tc, hrest]
  exact List.Perm.refl _

end Sys2Proof.Machine
end

section
/-! PROOFS. The books kept by the end of a stroke set and by a withdrawal (R42, R47, R48, R94, R127, R128). -/

namespace Sys2Proof.Machine

/-! ### Whole clusters out of the table -/

/-- A record leaves its cluster: the others of it have a leader of it, and no other record changes (R42). -/
theorem State.leaveCluster_records (s : State) (r : Record) : ∃ g : Record → Record, (s.leaveCluster r).tc.records = s.tc.records.map g
    ∧ (∀ q, (g q).slot = q.slot ∧ (g q).gen = q.gen) ∧ (∀ q, q.leaderTag ≠ r.leaderTag → g q = q)
    ∧ ∀ q, g q = q ∨ (g q).leaderTag = r.leaderTag ∨ ∃ first ∈ s.tc.records, first.leaderTag = r.leaderTag ∧ (g q).leaderTag = first.tag := by
  have hid : ∃ g : Record → Record, s.tc.records = s.tc.records.map g ∧ (∀ q, (g q).slot = q.slot ∧ (g q).gen = q.gen) ∧ (∀ q, q.leaderTag ≠ r.leaderTag → g q = q)
      ∧ ∀ q, g q = q ∨ (g q).leaderTag = r.leaderTag ∨ ∃ first ∈ s.tc.records, first.leaderTag = r.leaderTag ∧ (g q).leaderTag = first.tag :=
    ⟨id, (List.map_id _).symm, fun _ => ⟨rfl, rfl⟩, fun _ _ => rfl, fun _ => .inl rfl⟩
  unfold State.leaveCluster
  split
  · exact hid
  · exact hid
  · next first rest _ hm =>
    have hfirst : first ∈ s.membersOf r.leaderTag := hm ▸ List.mem_cons_self
    obtain ⟨hf, hft⟩ := State.mem_membersOf.mp hfirst
    obtain ⟨lead, hlead⟩ : ∃ lead, lead = if r.leaderTag = r.tag then first.tag else r.leaderTag := ⟨_, rfl⟩
    have hrel := fun q => s.relink_relinked lead (rest.length + 1) q
    have hin : ∀ q, (if (q.leaderTag == r.leaderTag) = true then s.relink lead (rest.length + 1) q else q) = if q.leaderTag = r.leaderTag then s.relink lead (rest.length + 1) q else q := fun q => by
      simp only [beq_iff_eq]
    refine ⟨fun q => if q.leaderTag = r.leaderTag then s.relink lead (rest.length + 1) q else q, ?_, fun q => ?_, fun q hq => if_neg hq, fun q => ?_⟩
    · dsimp only
      rw [← hlead]
      refine Eq.trans ?_ (List.map_congr_left fun q _ => hin q)
      cases r.route <;> rfl
    · by_cases hq : q.leaderTag = r.leaderTag
      · simp only [if_pos hq]
        exact ⟨(hrel q).slot, (hrel q).gen⟩
      · simp only [if_neg hq, and_self]
    · by_cases hq : q.leaderTag = r.leaderTag
      · simp only [if_pos hq]
        right
        rw [(hrel q).leader, hlead]
        by_cases hself : r.leaderTag = r.tag
        · exact .inr ⟨first, hf, hft, if_pos hself⟩
        · exact .inl (if_neg hself)
      · exact .inl (if_neg hq)

/-- Records of whole clusters retired: the others stand, and none of these tags is live (R40). -/
theorem State.retireAll_whole_records {c : RetireOutcome} {all : List Tag} : ∀ (ts : List Tag) {s : State}, s.tableLaw → (∀ r ∈ s.tc.records, r.leaderTag ∈ all ↔ r.tag ∈ all) → (∀ t ∈ ts, t ∈ all) →
    (s.retireAll c ts).tc.records.filter (fun q => !all.contains q.tag) = s.tc.records.filter (fun q => !all.contains q.tag)
      ∧ ∀ q ∈ (s.retireAll c ts).tc.records, q.tag ∉ ts ∧ ∃ p ∈ s.tc.records, p.tag = q.tag
  | [], s, _, _, _ => ⟨rfl, fun q hq => ⟨List.not_mem_nil, q, hq, rfl⟩⟩
  | t :: rest, s, hs, hwhole, hall => by
    show ((s.retire c t).retireAll c rest).tc.records.filter _ = _ ∧ _
    cases hfind : s.find t with
    | none =>
      have hsame : s.retire c t = s := by
        unfold State.retire
        rw [hfind]
      rw [hsame]
      obtain ⟨h1, h2⟩ := State.retireAll_whole_records (c := c) rest hs hwhole fun x hx => hall x (List.mem_cons_of_mem t hx)
      refine ⟨h1, fun q hq => ⟨fun hin => ?_, (h2 q (by rw [← hsame]; exact hq)).2⟩⟩
      obtain ⟨hnot, p, hp, hpq⟩ := h2 q (by rw [← hsame]; exact hq)
      obtain ht | ht := List.mem_cons.mp hin
      · exact State.find_none_iff.mp hfind p hp (hpq.trans ht)
      · exact hnot ht
    | some r =>
      have hr := List.mem_of_find?_eq_some hfind
      have ht : r.tag = t := by simpa using List.find?_some hfind
      subst ht
      have hrall : r.tag ∈ all := hall _ List.mem_cons_self
      have hlead : r.leaderTag ∈ all := (hwhole r hr).mpr hrall
      obtain ⟨g, hg, hname, hother, hown⟩ := State.leaveCluster_records ((s.without r).countKey r.key c.count) r
      have htag : ∀ q, (g q).tag = q.tag := fun q => by
        unfold Record.tag
        rw [(hname q).1, (hname q).2]
      have hrecords : (s.retire c r.tag).tc.records = (s.tc.records.filter (fun q => q.tag != r.tag)).map g := by
        rw [State.retire_found hs hr, State.drainCheck_tc]
        exact hg
      have hmem : ∀ q' ∈ (s.retire c r.tag).tc.records, ∃ q ∈ s.tc.records, q.tag ≠ r.tag ∧ g q = q' := fun q' hq' => by
        rw [hrecords] at hq'
        obtain ⟨q, hq, rfl⟩ := List.mem_map.mp hq'
        obtain ⟨hq, hne⟩ := List.mem_filter.mp hq
        exact ⟨q, hq, bne_iff_ne.mp hne, rfl⟩
      have hs' : (s.retire c r.tag).tableLaw := by
        rw [State.tableLaw, hrecords, List.map_map]
        have hslot : (fun r : Record => r.slot) ∘ g = fun r => r.slot := funext fun q => (hname q).1
        rw [hslot]
        exact hs.sublist (List.filter_sublist.map _)
      have hwhole' : ∀ q ∈ (s.retire c r.tag).tc.records, q.leaderTag ∈ all ↔ q.tag ∈ all := fun q' hq' => by
        obtain ⟨q, hq, -, rfl⟩ := hmem q' hq'
        rw [htag]
        by_cases hl : q.leaderTag = r.leaderTag
        · have hin : q.tag ∈ all := (hwhole q hq).mp (hl ▸ hlead)
          refine ⟨fun _ => hin, fun _ => ?_⟩
          obtain h | h | ⟨first, hf, hfl, h⟩ := hown q
          · rw [h, hl]
            exact hlead
          · rw [h]
            exact hlead
          · rw [h]
            have hfs : first ∈ s.tc.records := (List.mem_filter.mp hf).1
            exact (hwhole first hfs).mp (hfl ▸ hlead)
        · rw [hother q hl]
          exact hwhole q hq
      obtain ⟨h1, h2⟩ := State.retireAll_whole_records (c := c) rest hs' hwhole' fun x hx => hall x (List.mem_cons_of_mem r.tag hx)
      refine ⟨h1.trans ?_, fun q hq => ?_⟩
      · rw [hrecords, List.filter_map, List.filter_filter]
        have hpick : s.tc.records.filter (fun q => ((fun q => !all.contains q.tag) ∘ g) q && q.tag != r.tag) = s.tc.records.filter (fun q => !all.contains q.tag) := by
          refine List.filter_congr fun q _ => ?_
          simp only [Function.comp, htag]
          by_cases hin : q.tag ∈ all
          · simp [hin]
          · have hne : q.tag ≠ r.tag := fun e => hin (e ▸ hrall)
            simp [hin, hne]
        rw [hpick]
        refine (List.map_congr_left fun q hq => ?_).trans (List.map_id _)
        obtain ⟨hq, hout⟩ := List.mem_filter.mp hq
        rw [Bool.not_eq_true', List.contains_eq_mem, decide_eq_false_iff_not] at hout
        exact hother q fun e => hout ((hwhole q hq).mp (e ▸ hlead))
      · obtain ⟨hnot, p, hp, hpq⟩ := h2 q hq
        obtain ⟨x, hx, hne, rfl⟩ := hmem p hp
        rw [htag] at hpq
        exact ⟨fun hin => (List.mem_cons.mp hin).elim (fun e => hne (hpq.trans e)) hnot, x, hx, hpq⟩

/-- Whole clusters retired leave the other records as they were (R40). -/
theorem State.retireAll_whole {s : State} (hs : s.tableLaw) {ts : List Tag} (hwhole : ∀ r ∈ s.tc.records, r.leaderTag ∈ ts ↔ r.tag ∈ ts) (c : RetireOutcome) :
    (s.retireAll c ts).tc.records = s.tc.records.filter (fun q => !ts.contains q.tag) := by
  obtain ⟨hkept, hgone⟩ := State.retireAll_whole_records (c := c) ts hs hwhole fun _ h => h
  rw [← hkept]
  refine (List.filter_eq_self.mpr fun q hq => ?_).symm
  rw [Bool.not_eq_true', List.contains_eq_mem, decide_eq_false_iff_not]
  exact (hgone q hq).1

/-! ### The end of a stroke set -/

/-- A held set's records and the rest of the table. -/
structure State.SetParts (s : State) (o : OutletNo) (set : StrokeSet) (ms rest : List Record) : Prop where
  parts : s.tc.records.Perm (ms ++ rest)
  separate : Separate ms rest
  picked : ∀ r, r ∈ ms ↔ r ∈ s.tc.records ∧ r.tag ∈ set.members
  fired : ∀ r ∈ ms, r.isAt .fired o
  unfired : ∀ r ∈ rest, ¬r.isAt .fired o
  others : rest = s.tc.records.filter (fun q => !set.members.contains q.tag)

theorem State.booksLaw.fired_iff {s : State} (hs : s.booksLaw) {o : OutletNo} {set : StrokeSet} (h : (s.outlet o).strokeSet = some set) {r : Record} (hr : r ∈ s.tc.records) :
    r.tag ∈ set.members ↔ r.isAt .fired o := by
  have hfired := hs.fired o
  rw [h] at hfired
  rw [hfired.2.1]
  refine ⟨fun ⟨q, hq, ht, hat⟩ => ?_, fun hat => ⟨r, hr, rfl, hat⟩⟩
  rw [State.eq_of_tag hs.slots hr hq ht] at hat
  exact hat

/-- The records of a held set, in whatever order, and the rest. -/
theorem State.booksLaw.setParts {s : State} (hs : s.booksLaw) {o : OutletNo} {set : StrokeSet} (h : (s.outlet o).strokeSet = some set) {ms : List Record}
    (hms : ms.Perm (s.tc.records.filter (fun q => set.members.contains q.tag))) : s.SetParts o set ms (s.tc.records.filter (fun q => !set.members.contains q.tag)) := by
  have hpicked : ∀ r, r ∈ ms ↔ r ∈ s.tc.records ∧ r.tag ∈ set.members := fun r => by
    rw [hms.mem_iff, List.mem_filter, List.contains_iff_mem]
  have hrest : ∀ r, r ∈ s.tc.records.filter (fun q => !set.members.contains q.tag) ↔ r ∈ s.tc.records ∧ r.tag ∉ set.members := fun r => by
    rw [List.mem_filter, Bool.not_eq_true', List.contains_eq_mem, decide_eq_false_iff_not]
  have hfired : ∀ r ∈ ms, r.isAt .fired o := fun r hr => (hs.fired_iff h ((hpicked r).mp hr).1).mp ((hpicked r).mp hr).2
  have hunfired : ∀ r ∈ s.tc.records.filter (fun q => !set.members.contains q.tag), ¬r.isAt .fired o := fun r hr hat =>
    ((hrest r).mp hr).2 ((hs.fired_iff h ((hrest r).mp hr).1).mpr hat)
  exact ⟨((hms.append_right _).trans (List.filter_append_perm _ _)).symm,
    fun r hr q hq e => hunfired q hq ((hs.clustered.isAt ((hpicked r).mp hr).1 ((hrest q).mp hq).1 e.symm).mpr (hfired r hr)), hpicked, hfired, hunfired, rfl⟩

/-- An account as its stroke set ends. -/
def Account.ended (a : Account) (units : Nat) : Account := { a with committed := a.committed - units, held := none }

/-- A stroke set's records exchanged for records without routes (R127, R128). -/
theorem Books.endSet {ms ms' rest : List Record} {acc acc' : OutletNo → Account} (h : Books (ms ++ rest) acc) (ha : Separate ms rest) {o : OutletNo} {set : StrokeSet}
    (hfired : ∀ r ∈ ms, r.isAt .fired o) (hunfired : ∀ r ∈ rest, ¬r.isAt .fired o) (hheld : (acc o).held = some set) (hr : Replaces ms ms') (hfree : ∀ r ∈ ms', r.route = none)
    (hacc : ∀ j, acc' j = if j = o then (acc o).ended set.units else acc j) : Books (ms' ++ rest) acc' := by
  refine h.exchange_within ha hr.slots hr.lead hr.stated hr.linked fun j => ?_
  have hagrees := h.accounts j
  rw [hacc]
  have hnew := Absent.of_free hfree j
  by_cases hj : j = o
  · subst hj
    rw [if_pos rfl]
    have hrest : recordsIn .fired j rest = [] := recordsIn_eq_nil.mpr hunfired
    have hunits : set.units = unitsIn j ms := by
      have hh := hagrees.held
      rw [hheld, recordsIn_append, hrest, List.append_nil, recordsIn_all hfired] at hh
      exact hh.units
    refine ⟨?_, ?_, ?_⟩
    · have hc := hagrees.committed
      show (acc j).committed - set.units = _
      rw [unitsIn_append] at hc ⊢
      rw [hnew.unitsIn, hc, hunits]
      omega
    · show recordsIn .fired j _ = []
      rw [recordsIn_append, hnew.recordsIn, hrest, List.append_nil]
    · have hw := hagrees.waiting
      rw [recordsIn_append, recordsIn_other (fun r hr => (hfired r hr).1) (by simp)] at hw
      rw [recordsIn_append, hnew.recordsIn]
      exact hw
  · rw [if_neg hj]
    exact hagrees.of_absent (fun r hr e => hj (Option.some.inj ((hfired r hr).2.symm.trans e)).symm) hnew

theorem Replaces.nil (ms : List Record) : Replaces ms [] := ⟨List.nil_sublist _, fun _ h => (by cases h), fun _ h => (by cases h), fun _ h => (by cases h)⟩

/-- The units of a held set are among the committed units. -/
theorem State.booksLaw.set_units {s : State} (hs : s.booksLaw) {o : OutletNo} {set : StrokeSet} (h : (s.outlet o).strokeSet = some set) : set.units ≤ (s.outlet o).committed := by
  have hp := hs.setParts h (List.Perm.refl _)
  have hagrees := (hs.books hp.parts).accounts o
  have hh := hagrees.held
  have hheld : (s.accounts o).held = some set := h
  rw [hheld, recordsIn_append, recordsIn_eq_nil.mpr hp.unfired, List.append_nil, recordsIn_all hp.fired] at hh
  have hc : (s.outlet o).committed = _ := hagrees.committed
  rw [hc, unitsIn_append, hh.units]
  exact Nat.le_add_right ..

/-- Retired records of a held set keep the books where the outlet ends the set. -/
theorem State.booksLaw.retireSet {s v : State} (hs : s.booksLaw) {o : OutletNo} {set : StrokeSet} (h : (s.outlet o).strokeSet = some set)
    (hrec : v.tc.records = s.tc.records.filter (fun q => !set.members.contains q.tag)) (hacc : ∀ j, v.accounts j = if j = o then (s.accounts o).ended set.units else s.accounts j) : v.booksLaw := by
  have hp := hs.setParts h (List.Perm.refl _)
  have hbooks := (hs.books hp.parts).endSet (acc' := v.accounts) hp.separate hp.fired hp.unfired (show (s.accounts o).held = some set from h) (.nil _) (fun _ h => by cases h) hacc
  exact State.booksLaw_of_perm hbooks (List.Perm.of_eq hrec) fun _ => rfl

/-- A confirm keeps the books (R127). -/
theorem State.booksLaw.confirmSet {s : State} (hs : s.booksLaw) {o : OutletNo} {set : StrokeSet} (h : (s.outlet o).strokeSet = some set) : (s.confirmSet o set).booksLaw := by
  have hrec := State.retireAll_whole hs.slots (hs.set_whole h).1.2.2 .delivered
  have hacc : (s.retireAll .delivered set.members).accounts = s.accounts := State.accounts_retireAll ..
  have hcommitted : ((s.retireAll .delivered set.members).outlet o).committed = (s.outlet o).committed := congrArg Account.committed (congrFun hacc o)
  refine hs.retireSet h hrec fun j => ?_
  unfold State.confirmSet State.accounts
  dsimp only
  rw [State.outlet_setOutlet]
  by_cases hj : o = j
  · subst hj
    rw [if_pos rfl, if_pos rfl, hcommitted, Nat.min_eq_left (hs.set_units h)]
    have hwaiting := congrArg Account.waiting (congrFun hacc o)
    unfold Account.ended
    exact congrArg (fun w => ({ committed := (s.outlet o).committed - set.units, held := none, waiting := w } : Account)) hwaiting
  · rw [if_neg hj, if_neg (Ne.symm hj)]
    exact congrFun hacc j

/-- A state whose outlet has ended its set and given its units back. -/
theorem State.accounts_endSet {s : State} (o : OutletNo) (units : Nat) (j : OutletNo) :
    ((s.modOutlet o Outlet.endSet).release o units).accounts j = if j = o then (s.accounts o).ended units else s.accounts j := by
  rw [State.release_eq, State.outlet_modOutlet_self]
  show (((s.modOutlet o Outlet.endSet).setOutlet o ((s.outlet o).endSet.less units)).outlet j).account = _
  rw [State.outlet_setOutlet]
  by_cases hj : o = j
  · rw [if_pos hj, if_pos hj.symm]
    rfl
  · rw [if_neg hj, if_neg (Ne.symm hj), State.outlet_modOutlet, if_neg hj]
    rfl

/-- The loss of a held set keeps the books (R94). -/
theorem State.booksLaw.loseSet {s : State} (hs : s.booksLaw) (o : OutletNo) : (s.loseSet o).booksLaw := by
  unfold State.loseSet
  cases h : (s.outlet o).strokeSet with
  | none => exact hs
  | some set =>
    dsimp only
    obtain ⟨v, hv⟩ : ∃ v, v = (s.modOutlet o Outlet.endSet).release o set.units := ⟨_, rfl⟩
    have hvtc : v.tc = s.tc := by
      rw [hv, State.release_eq]
      rfl
    rw [← hv]
    refine hs.retireSet h ?_ fun j => ?_
    · rw [State.retireAll_whole (by rw [State.tableLaw, hvtc]; exact hs.slots) (by rw [hvtc]; exact (hs.set_whole h).1.2.2), hvtc]
    · rw [State.accounts_retireAll, hv]
      exact State.accounts_endSet o set.units j

/-- A miss keeps the books (R128). -/
theorem State.booksLaw.missSet {s : State} (hs : s.booksLaw) {o : OutletNo} {set : StrokeSet} (h : (s.outlet o).strokeSet = some set) : (s.missSet o set).booksLaw := by
  obtain ⟨u, hu⟩ : ∃ u, u = s.modOutlet o Outlet.endSet := ⟨_, rfl⟩
  have hutc : u.tc = s.tc := by rw [hu]; rfl
  have hus : u.tableLaw := by
    rw [State.tableLaw, hutc]
    exact hs.slots
  obtain ⟨ms, hms, hn, hsame⟩ := State.carryAll_picked hus .strokeMiss set.members
  rw [hutc] at hms
  have hperm : ms.Perm (s.tc.records.filter (fun q => set.members.contains q.tag)) := by
    refine (List.perm_ext_iff_of_nodup (List.Nodup.of_map _ hn) ((List.Nodup.of_map _ (State.tags_nodup hs.slots)).filter _)).mpr fun r => ?_
    rw [hms, List.mem_filter, List.contains_iff_mem]
  have hp := hs.setParts h hperm
  have hbooks := hs.books hp.parts
  have hcarry := State.carryAll_eq hus (fun r hr => by rw [hutc]; exact ((hp.picked r).mp hr).1) hn .strokeMiss
  have hmissed : s.missSet o set = ((ms.foldl State.giveBack u).withEach ms (u.ride .strokeMiss)).retireAll .ended (u.endedOf ms) := by
    rw [← hcarry, ← hsame, hu]
    rfl
  have hrouted : RoutedAt o ms := fun r hr => by
    obtain ⟨route, hroute, ho⟩ := Option.map_eq_some_iff.mp (hp.fired r hr).2
    exact ⟨route, hroute, ho⟩
  have hunits : set.units = routeUnits ms := by
    have hh := (hbooks.accounts o).held
    rw [show (s.accounts o).held = some set from h, recordsIn_append, recordsIn_eq_nil.mpr hp.unfired, List.append_nil, recordsIn_all hp.fired] at hh
    rw [hh.units, unitsIn_routedAt hrouted]
  have hgiven : ∀ j, (ms.foldl State.giveBack u).accounts j = if j = o then (s.accounts o).ended set.units else s.accounts j := fun j => by
    have hrelease : (ms.foldl State.giveBack u).accounts = (u.release o set.units).accounts := by
      rw [hunits]
      cases hms' : ms with
      | nil =>
        refine (funext fun j => ?_ : u.accounts = (u.release o (routeUnits [])).accounts)
        rw [State.release_eq]
        show _ = ((u.setOutlet o ((u.outlet o).less 0)).outlet j).account
        rw [State.outlet_setOutlet]
        split
        · next e =>
          subst e
          rfl
        · rfl
      | cons r rest => rw [State.foldl_giveBack_at (hms' ▸ hrouted)]
    rw [hrelease, hu]
    exact State.accounts_endSet o set.units j
  have hrode := State.rode_perm (v := ms.foldl State.giveBack u) (rest := s.tc.records.filter (fun q => !set.members.contains q.tag)) hus (by rw [hutc]; exact hp.parts) .strokeMiss (by rw [State.foldl_giveBack_tc])
  rw [hmissed]
  refine State.booksLaw_of_perm (hbooks.endSet hp.separate hp.fired hp.unfired (show (s.accounts o).held = some set from h) (replaces_ride _) (fun q' hq' => ?_) hgiven) hrode fun j => ?_
  · obtain ⟨q, -, rfl⟩ := List.mem_map.mp (List.mem_filter.mp hq').1
    rfl
  · rw [State.accounts_retireAll]
    rfl

end Sys2Proof.Machine
end

section
/-! PROOFS. The books kept by a withdrawal and by a new record (R32 to R36, R42, R47, R48). -/

namespace Sys2Proof.Machine

/-! ### One record out of its cluster -/

/-- An account without one record of a ROUTED or DUE cluster (R48, R121). -/
def Account.dropped (a : Account) (t : Tag) (units : Nat) : Account where
  committed := a.committed - units
  held := a.held
  waiting := match a.waiting with
    | some (ts, u) => if t ∈ ts then (if ts.filter (fun m => m != t) = [] then none else some (ts.filter (fun m => m != t), u - units)) else some (ts, u)
    | none => none

theorem Outlet.account_dropMember (x : Outlet) (t : Tag) (n : Nat) : ((x.dropMember t n).less n).account = x.account.dropped t n := by
  have hwaiting : ((x.dropMember t n).less n).account.waiting = (x.account.dropped t n).waiting := by
    rw [Outlet.dropMember_eq]
    unfold Outlet.less Outlet.account Account.dropped
    dsimp only
    cases hreq : x.request with
    | none => rfl
    | some w =>
      cases w with
      | test => rfl
      | deadline ts late u =>
        dsimp only
        by_cases hin : t ∈ ts
        · rw [if_pos hin, if_pos hin]
          by_cases hnil : ts.filter (fun m => m != t) = []
          · rw [if_pos hnil, if_pos hnil]
          · rw [if_neg hnil, if_neg hnil]
        · rw [if_neg hin, if_neg hin]
  have hrest : (x.dropMember t n).committed = x.committed ∧ (x.dropMember t n).strokeSet = x.strokeSet := by
    rw [Outlet.dropMember_eq]
    exact ⟨rfl, rfl⟩
  have hcommitted : ((x.dropMember t n).less n).account.committed = (x.account.dropped t n).committed := congrArg (· - n) hrest.1
  exact (congrArg₂ (fun c h => ({ committed := c, held := h, waiting := ((x.dropMember t n).less n).account.waiting } : Account)) hcommitted hrest.2).trans
    (congrArg (fun w => ({ committed := (x.account.dropped t n).committed, held := x.strokeSet, waiting := w } : Account)) hwaiting)

theorem Outlet.account_withdrawn (x : Outlet) (t : Tag) (n : Nat) : (x.withdrawn t n).account = x.account.dropped t n := by
  rw [← Outlet.account_dropMember, Outlet.dropMember_eq]
  rfl

theorem Outlet.account_parted {x : Outlet} {t : Tag} (hleft : t ∈ x.requestMembers → ∃ m ∈ x.requestMembers, m ≠ t) (old lead : Tag) (n : Nat) : (x.parted old lead t n).account = x.account.dropped t n := by
  rw [← Outlet.parted_eq hleft, Outlet.account_renameLatest, Outlet.account_dropMember]

/-- One record of a ROUTED or DUE cluster taken out, the others linked anew (R42, R48). -/
theorem Books.part {r : Record} {ms rest : List Record} {acc acc' : OutletNo → Account} (h : Books ((r :: ms) ++ rest) acc) {t : Tag} (hlead : ∀ q ∈ r :: ms, q.leaderTag = t)
    (hrest : ∀ q ∈ rest, q.leaderTag ≠ t) {route : Route} (hroute : r.route = some route) (hst : r.state = .routed ∨ r.state = .due) {f : Record → Record} (hr : Replaces (r :: ms) (ms.map f))
    (hf : ∀ q, (f q).tag = q.tag ∧ (f q).state = q.state ∧ (f q).route = q.route) (hone : ∀ q ∈ ms.map f, ∀ p ∈ ms.map f, q.leaderTag = p.leaderTag)
    (hacc : ∀ j, acc' j = if j = route.outlet then (acc route.outlet).dropped r.tag route.units else acc j) : Books (ms.map f ++ rest) acc' := by
  have ha : Separate (r :: ms) rest := fun q hq p hp e => hrest p hp (e.symm.trans (hlead q hq))
  have hlive := fun q (hq : q ∈ r :: ms) => List.mem_append_left rest hq
  have hsame := fun q (hq : q ∈ r :: ms) => h.same (hlive r List.mem_cons_self) (hlive q hq) ((hlead q hq).trans (hlead r List.mem_cons_self).symm)
  have hgoal : ∀ q ∈ r :: ms, q.route.map (fun x => x.outlet) = some route.outlet := fun q hq => by
    have hg := congrArg (Option.map Prod.fst) (hsame q hq).2
    unfold Record.goal at hg
    rw [Option.map_map, Option.map_map, hroute] at hg
    exact hg
  have hrouted : RoutedAt route.outlet (r :: ms) := fun q hq => Option.map_eq_some_iff.mp (hgoal q hq)
  have hunits : ∀ o, unitsIn o (ms.map f) = unitsIn o ms := fun o => by
    unfold unitsIn
    rw [List.map_map]
    refine congrArg List.sum (List.map_congr_left fun q _ => ?_)
    simp only [Function.comp, Record.unitsAt, (hf q).2.2]
  have htags : (ms.map f).map Record.tag = ms.map Record.tag := List.map_map.trans (List.map_congr_left fun q _ => (hf q).1)
  refine h.exchange_within ha hr.slots hr.lead hr.stated hr.linked fun j => ?_
  have hagrees := h.accounts j
  rw [hacc]
  by_cases hj : j = route.outlet
  · subst hj
    rw [if_pos rfl]
    have hstates : ∀ q ∈ ms.map f, q.state = r.state := fun q' hq' => by
      obtain ⟨q, hq, rfl⟩ := List.mem_map.mp hq'
      exact (hf q).2.1.trans (hsame q (List.mem_cons_of_mem r hq)).1
    have hnotfired : RecordState.fired ≠ r.state := by
      obtain h | h := hst <;> rw [h] <;> exact fun e => by cases e
    have hone' : r.unitsAt route.outlet = route.units := by
      unfold Record.unitsAt
      rw [hroute]
      exact if_pos rfl
    have hsum : unitsIn route.outlet (r :: ms) = route.units + unitsIn route.outlet ms := congrArg (· + unitsIn route.outlet ms) hone'
    refine ⟨?_, ?_, ?_⟩
    · have hc := hagrees.committed
      show (acc route.outlet).committed - route.units = _
      rw [unitsIn_append] at hc ⊢
      rw [hc, hunits, hsum]
      omega
    · have hh := hagrees.held
      rw [recordsIn_append, recordsIn_other (fun q hq => (hsame q hq).1) hnotfired.symm] at hh
      rw [recordsIn_append, recordsIn_other hstates hnotfired.symm]
      exact hh
    · have hw := hagrees.waiting
      rw [recordsIn_append] at hw ⊢
      unfold Account.dropped
      dsimp only
      obtain hst | hst := hst
      · have hnone : ∀ {l : List Record}, (∀ q ∈ l, q.state = r.state) → recordsIn .due route.outlet l = [] := fun hl => recordsIn_other (st' := .routed) (fun q hq => (hl q hq).trans hst) (by simp)
        rw [hnone fun q hq => (hsame q hq).1, List.nil_append] at hw
        rw [hnone hstates, List.nil_append]
        cases hwait : (acc route.outlet).waiting with
        | none =>
          rw [hwait] at hw
          exact hw
        | some w =>
          rw [hwait] at hw
          have hout : r.tag ∉ w.1 := fun hin => by
            obtain ⟨q, hq, hqt⟩ := List.mem_map.mp ((hw.1.tags r.tag).mp hin)
            exact tags_apart h.slots (mem_recordsIn.mp hq).1 (List.mem_map.mpr ⟨r, List.mem_cons_self, hqt.symm⟩)
          dsimp only
          rw [if_neg hout]
          exact hw
      · have hall : ∀ q ∈ r :: ms, q.isAt .due route.outlet := fun q hq => ⟨(hsame q hq).1.trans hst, hgoal q hq⟩
        have hall' : ∀ q ∈ ms.map f, q.isAt .due route.outlet := fun q' hq' => by
          obtain ⟨q, hq, rfl⟩ := List.mem_map.mp hq'
          refine ⟨(hstates _ hq').trans hst, ?_⟩
          rw [(hf q).2.2]
          exact hgoal q (List.mem_cons_of_mem r hq)
        rw [recordsIn_all hall] at hw
        rw [recordsIn_all hall']
        cases hwait : (acc route.outlet).waiting with
        | none =>
          rw [hwait] at hw
          cases hw
        | some w =>
          rw [hwait] at hw
          obtain ⟨hn, hcluster⟩ := hw
          have hnil : recordsIn .due route.outlet rest = [] := List.eq_nil_iff_forall_not_mem.mpr fun q hq =>
            hrest q (mem_recordsIn.mp hq).1 ((hcluster q (List.mem_append_right _ hq) r (List.mem_append_left _ List.mem_cons_self)).trans (hlead r List.mem_cons_self))
          rw [hnil, List.append_nil] at hn ⊢
          have hin : r.tag ∈ w.1 := (hn.tags r.tag).mpr List.mem_cons_self
          have hnot : r.tag ∉ ms.map Record.tag := fun hin => by
            obtain ⟨q, hq, hqt⟩ := List.mem_map.mp hin
            have hs := h.slots
            rw [List.cons_append, List.map_cons, List.nodup_cons] at hs
            exact hs.1 (List.mem_map.mpr ⟨q, List.mem_append_left rest hq, congrArg Tag.slot hqt⟩)
          have hleft : ∀ t, t ∈ w.1.filter (fun m => m != r.tag) ↔ t ∈ (ms.map f).map Record.tag := fun t => by
            rw [htags, List.mem_filter, hn.tags, List.map_cons, List.mem_cons, bne_iff_ne]
            exact ⟨fun ⟨h, hne⟩ => h.resolve_left hne, fun h => ⟨.inr h, fun e => hnot (e ▸ h)⟩⟩
          dsimp only
          rw [if_pos hin]
          by_cases hempty : w.1.filter (fun m => m != r.tag) = []
          · rw [if_pos hempty]
            refine List.eq_nil_iff_forall_not_mem.mpr fun q hq => ?_
            have h := (hleft q.tag).mpr (List.mem_map_of_mem hq)
            rw [hempty] at h
            cases h
          · rw [if_neg hempty]
            refine ⟨⟨hn.nodup.filter _, hleft, ?_⟩, hone⟩
            rw [hunits, hn.units, hsum]
            omega
  · rw [if_neg hj]
    refine hagrees.of_absent (.of_routedAt hrouted hj) fun q' hq' => ?_
    obtain ⟨q, hq, rfl⟩ := List.mem_map.mp hq'
    rw [(hf q).2.2, hgoal q (List.mem_cons_of_mem r hq)]
    exact fun e => hj (Option.some.inj e).symm

/-! ### A withdrawal -/

theorem State.perm_cons {s : State} (hs : s.tableLaw) {r : Record} (hr : r ∈ s.tc.records) : s.tc.records.Perm (r :: s.tc.records.filter (fun q => q.tag != r.tag)) := by
  have h := (List.filter_append_perm (fun q : Record => q.tag == r.tag) s.tc.records).symm
  rw [State.filter_tag hs hr] at h
  exact h

/-- The table of a record that leaves its cluster (R42). -/
theorem State.leaving_perm {s : State} (hs : s.tableLaw) {r : Record} (hr : r ∈ s.tc.records) : (s.tc.records.filter (fun q => q.tag != r.tag)).Perm
    ((s.membersOf r.leaderTag).filter (fun q => q.tag != r.tag) ++ s.othersOf r.leaderTag) := by
  have h := (s.parts_perm r.leaderTag).filter (fun q => q.tag != r.tag)
  rw [List.filter_append] at h
  refine h.trans (List.Perm.of_eq (congrArg ((s.membersOf r.leaderTag).filter (fun q => q.tag != r.tag) ++ ·) (List.filter_eq_self.mpr fun q hq => ?_)))
  obtain ⟨hq, hne⟩ := State.mem_othersOf.mp hq
  exact bne_iff_ne.mpr fun e => hne (by rw [State.eq_of_tag hs hr hq e])

theorem State.booksLaw.cluster_size {s : State} (hs : s.booksLaw) {r : Record} (hr : r ∈ s.tc.records) (hc : r.cluster ≠ none) :
    2 ≤ (s.membersOf r.leaderTag).length ∧ (s.membersOf r.leaderTag).length ≤ 8 := by
  obtain ⟨link, hlink⟩ := Option.ne_none_iff_exists'.mp hc
  cases link with
  | leader n =>
    obtain ⟨hn, hlo, hhi⟩ := hs.leaders r hr n hlink
    rw [Record.leaderTag_of_leader hlink, ← hn]
    exact ⟨hlo, hhi⟩
  | member t =>
    obtain ⟨l, hl, hlt, ⟨n, hn⟩, -⟩ := hs.members r hr t hlink
    obtain ⟨hlen, hlo, hhi⟩ := hs.leaders l hl n hn
    rw [Record.leaderTag_of_member hlink, ← hlt, ← hlen]
    exact ⟨hlo, hhi⟩

theorem State.relinked_leader (s : State) (t : Tag) (n : Nat) (q : Record) : (s.relinked t n q).leaderTag = t := by
  unfold State.relinked
  by_cases h : q.tag = t
  · rw [if_pos h]
    by_cases hn : n = 1
    · rw [if_pos hn]
      exact h
    · rw [if_neg hn]
      exact h
  · rw [if_neg h]
    rfl

theorem State.relinked_keeps (s : State) (t : Tag) (n : Nat) (q : Record) :
    (s.relinked t n q).state = q.state ∧ (s.relinked t n q).route = q.route ∧ (s.relinked t n q).carry = q.carry := by
  unfold State.relinked
  split <;> exact ⟨rfl, rfl, rfl⟩

/-- The cluster field of a record linked anew (R42). -/
theorem State.relinked_cluster (s : State) (t : Tag) (n : Nat) (q : Record) :
    (s.relinked t n q).cluster = if q.tag = t then (if n = 1 then none else some (.leader n)) else some (.member t) := by
  unfold State.relinked
  split <;> rfl

section
variable {s : State} {r lead : Record} {ms : List Record}

/-- Every member of the cluster that is left is in one state with one goal (R35). -/
theorem State.Leaving.same (h : s.Leaving r lead ms) {q : Record} (hq : q ∈ ms) : q.state = r.state ∧ q.goal = r.goal := by
  obtain ⟨hq, ht, -⟩ := h.mem_iff.mp hq
  exact h.books.clustered.same h.live hq ht

theorem State.Leaving.not_carried (h : s.Leaving r lead ms) : r.state ≠ .carried := fun hc => by
  obtain ⟨h, -⟩ | ⟨h | h, -⟩ := h.state <;> rw [hc] at h <;> cases h

theorem State.Leaving.length_le (h : s.Leaving r lead ms) : ms.length ≤ 8 := by
  rw [h.others]
  exact (List.length_filter_le _ _).trans (h.books.cluster_size h.live h.several).2

/-- The others of a cluster linked anew in the place of the whole (R42). -/
theorem State.Leaving.replaces (h : s.Leaving r lead ms) : Replaces (r :: ms) (ms.map (s.relinked lead.tag ms.length)) where
  slots := by
    rw [List.map_map]
    have hslot : (fun r : Record => r.slot) ∘ s.relinked lead.tag ms.length = fun r => r.slot := funext fun q => congrArg Tag.slot (s.relinked_tag lead.tag ms.length q)
    rw [hslot]
    exact List.sublist_cons_self _ _
  lead q' hq' := by
    obtain ⟨q, -, rfl⟩ := List.mem_map.mp hq'
    exact ⟨lead, List.mem_cons_of_mem r h.lead_mem, .inr (s.relinked_leader lead.tag ms.length q)⟩
  stated q' hq' := by
    obtain ⟨q, hq, rfl⟩ := List.mem_map.mp hq'
    obtain ⟨hstate, hroute, hcarry⟩ := s.relinked_keeps lead.tag ms.length q
    have hlive := (h.mem_iff.mp hq).1
    refine ⟨?_, ?_, fun hc => absurd (((h.same hq).1.symm.trans hstate.symm).trans hc) h.not_carried⟩
    · rw [hroute, hstate]
      exact h.books.routes q hlive
    · rw [hcarry, hstate]
      exact (h.books.carries q hlive).1
  linked q' hq' := by
    obtain ⟨q, hq, rfl⟩ := List.mem_map.mp hq'
    have hcluster := s.relinked_cluster lead.tag ms.length
    have hkeeps := s.relinked_keeps lead.tag ms.length
    refine ⟨fun t ht => ?_, fun n hn => ?_⟩
    · rw [hcluster] at ht
      by_cases hlead : q.tag = lead.tag
      · rw [if_pos hlead] at ht
        split at ht <;> cases ht
      · rw [if_neg hlead] at ht
        cases ht
        have hlen : ms.length ≠ 1 := fun hone => by
          obtain ⟨x, hx⟩ := List.length_eq_one_iff.mp hone
          have hl := h.lead_mem
          rw [hx, List.mem_singleton] at hq hl
          exact hlead (by rw [hq, hl])
        refine ⟨_, List.mem_map_of_mem h.lead_mem, s.relinked_tag .., ⟨ms.length, ?_⟩, ?_, ?_⟩
        · rw [hcluster, if_pos rfl, if_neg hlen]
        · rw [(hkeeps lead).1, (hkeeps q).1, (h.same h.lead_mem).1, (h.same hq).1]
        · unfold Record.goal
          rw [(hkeeps lead).2.1, (hkeeps q).2.1]
          exact (h.same h.lead_mem).2.trans (h.same hq).2.symm
    · rw [hcluster] at hn
      by_cases hlead : q.tag = lead.tag
      · rw [if_pos hlead] at hn
        by_cases hone : ms.length = 1
        · rw [if_pos hone] at hn
          cases hn
        · rw [if_neg hone] at hn
          cases hn
          have hall : clusterOf (s.relinked lead.tag ms.length q).tag (ms.map (s.relinked lead.tag ms.length)) = ms.map (s.relinked lead.tag ms.length) := by
            refine List.filter_eq_self.mpr fun p' hp' => ?_
            obtain ⟨p, -, rfl⟩ := List.mem_map.mp hp'
            rw [s.relinked_leader, s.relinked_tag, hlead, beq_self_eq_true]
          have hpos : 0 < ms.length := List.length_pos_of_mem hq
          rw [hall, List.length_map]
          exact ⟨rfl, by omega, h.length_le⟩
      · rw [if_neg hlead] at hn
        cases hn

/-- One record withdrawn out of its cluster keeps the books (R48). -/
theorem State.Leaving.booksLaw (h : s.Leaving r lead ms) : (s.withdrawnFrom r lead.tag ms).booksLaw := by
  have hparts : s.tc.records.Perm ((r :: ms) ++ s.othersOf r.leaderTag) := by
    refine (State.perm_cons h.books.slots h.live).trans (List.Perm.cons r ?_)
    rw [h.others]
    exact State.leaving_perm h.books.slots h.live
  have hbooks := h.books.books hparts
  have hlead : ∀ q ∈ r :: ms, q.leaderTag = r.leaderTag := fun q hq => by
    obtain rfl | hq := List.mem_cons.mp hq
    · rfl
    · exact (h.mem_iff.mp hq).2.1
  have hrest : ∀ q ∈ s.othersOf r.leaderTag, q.leaderTag ≠ r.leaderTag := fun q hq => (State.mem_othersOf.mp hq).2
  have hleft : (s.without r).tc.records.Perm (ms ++ s.othersOf r.leaderTag) := by
    rw [h.others]
    exact State.leaving_perm h.books.slots h.live
  have hperm : (s.withdrawnFrom r lead.tag ms).tc.records.Perm (ms.map (s.relinked lead.tag ms.length) ++ s.othersOf r.leaderTag) :=
    State.withEach_perm (s := s.without r) (h.books.slots.sublist (List.filter_sublist.map _)) hleft _
  have hkeeps : ∀ q, (s.relinked lead.tag ms.length q).tag = q.tag ∧ (s.relinked lead.tag ms.length q).state = q.state ∧ (s.relinked lead.tag ms.length q).route = q.route := fun q =>
    ⟨s.relinked_tag lead.tag ms.length q, (s.relinked_keeps lead.tag ms.length q).1, (s.relinked_keeps lead.tag ms.length q).2.1⟩
  obtain ⟨hst, hroute⟩ | ⟨hst, hroute⟩ := h.state
  · have hfree : ∀ q ∈ r :: ms, q.route = none := fun q hq => by
      obtain rfl | hq := List.mem_cons.mp hq
      · exact hroute
      · exact h.books.free h.live hst q (State.mem_membersOf.mpr ⟨(h.mem_iff.mp hq).1, (h.mem_iff.mp hq).2.1⟩)
    have hfree' : ∀ q' ∈ ms.map (s.relinked lead.tag ms.length), q'.route = none := fun q' hq' => by
      obtain ⟨q, hq, rfl⟩ := List.mem_map.mp hq'
      exact (hkeeps q).2.2.trans (hfree q (List.mem_cons_of_mem r hq))
    refine State.booksLaw_of_perm (hbooks.exchange_free (fun q hq p hp e => hrest p hp (e.symm.trans (hlead q hq))) h.replaces hfree hfree') hperm fun o => ?_
    have hout : (s.withdrawnFrom r lead.tag ms).outlets = s.outlets := by rw [State.withdrawnFrom, hroute]
    exact congrArg (fun v => (vget v o).account) hout
  · obtain ⟨route, hroute⟩ := Option.ne_none_iff_exists'.mp hroute
    have hout : (s.withdrawnFrom r lead.tag ms).outlets = vset s.outlets route.outlet ((s.outlet route.outlet).parted r.leaderTag lead.tag r.tag route.units) := by rw [State.withdrawnFrom, hroute]
    refine State.booksLaw_of_perm (hbooks.part (acc' := (s.withdrawnFrom r lead.tag ms).accounts) hlead hrest hroute hst h.replaces hkeeps (fun q' hq' p' hp' => ?_) fun j => ?_) hperm fun _ => rfl
    · obtain ⟨q, -, rfl⟩ := List.mem_map.mp hq'
      obtain ⟨p, -, rfl⟩ := List.mem_map.mp hp'
      rw [s.relinked_leader, s.relinked_leader]
    · show (vget (s.withdrawnFrom r lead.tag ms).outlets j).account = _
      rw [hout, vget_vset]
      by_cases hj : route.outlet = j
      · rw [if_pos hj, if_pos hj.symm]
        exact Outlet.account_parted (h.request_left route.outlet) ..
      · rw [if_neg hj, if_neg (Ne.symm hj)]
        rfl

end

/-- A lone record withdrawn keeps the books (R47). -/
theorem State.booksLaw.withdrawnLone {s : State} (hs : s.booksLaw) {r : Record} (hr : r ∈ s.tc.records) (hc : r.cluster = none)
    (hst : (r.state = .routed ∨ r.state = .due) ∧ r.route ≠ none ∨ (r.state = .pending ∨ r.state = .carried) ∧ r.route = none) : (s.withdrawnLone r).booksLaw := by
  have hself := Record.leaderTag_of_leads (Record.leads_of_none hc)
  have hparts : s.tc.records.Perm ([r] ++ s.tc.records.filter (fun q => q.tag != r.tag)) := State.perm_cons hs.slots hr
  have hbooks := hs.books hparts
  have hlead : ∀ q ∈ [r], q.leaderTag = r.tag := fun q hq => by
    rw [List.mem_singleton.mp hq]
    exact hself
  have hrest : ∀ q ∈ s.tc.records.filter (fun q => q.tag != r.tag), q.leaderTag ≠ r.tag := fun q hq e => by
    obtain ⟨hq, hne⟩ := List.mem_filter.mp hq
    have hm : q ∈ s.membersOf r.tag := State.mem_membersOf.mpr ⟨hq, e⟩
    rw [hs.members_alone hr hc, List.mem_singleton] at hm
    exact (bne_iff_ne.mp hne) (congrArg Record.tag hm)
  obtain ⟨hst, hroute⟩ | ⟨-, hroute⟩ := hst
  · obtain ⟨route, hroute⟩ := Option.ne_none_iff_exists'.mp hroute
    have hout : (s.withdrawnLone r).outlets = vset s.outlets route.outlet ((s.outlet route.outlet).withdrawn r.tag route.units) := by rw [State.withdrawnLone, hroute]
    refine State.booksLaw_of_perm (hbooks.part (ms := []) (f := id) (acc' := (s.withdrawnLone r).accounts) hlead hrest hroute hst (.nil _) (fun _ => ⟨rfl, rfl, rfl⟩) (fun _ h => by cases h) fun j => ?_)
      (List.Perm.refl _) fun _ => rfl
    show (vget (s.withdrawnLone r).outlets j).account = _
    rw [hout, vget_vset]
    by_cases hj : route.outlet = j
    · rw [if_pos hj, if_pos hj.symm]
      exact Outlet.account_withdrawn ..
    · rw [if_neg hj, if_neg (Ne.symm hj)]
      rfl
  · have hout : (s.withdrawnLone r).outlets = s.outlets := by rw [State.withdrawnLone, hroute]
    exact State.booksLaw_of_perm (hbooks.exchange_free (ms' := []) (fun q hq p hp e => hrest p hp (e.symm.trans (hlead q hq))) (.nil _) (fun q hq => List.mem_singleton.mp hq ▸ hroute) fun _ h => by cases h)
      (List.Perm.refl _) fun o => congrArg (fun v => (vget v o).account) hout

/-- A withdrawal keeps the books (R47, R48). -/
theorem State.booksLaw.withdraw {s t : State} (hs : s.booksLaw) {r : Record} (hr : r ∈ s.tc.records) (h : s.withdraw r = some t) : t.booksLaw := by
  have hroute := hs.routes r hr
  have hunfired : r.state ≠ .fired := fun hf => by
    unfold State.withdraw at h
    dsimp only at h
    rw [hf] at h
    cases h
  by_cases hc : r.cluster = none
  · have hst : (r.state = .routed ∨ r.state = .due) ∧ r.route ≠ none ∨ (r.state = .pending ∨ r.state = .carried) ∧ r.route = none := by
      cases hst : r.state with
      | pending => exact .inr ⟨.inl rfl, by_contra fun hne => by simpa [hst] using hroute.mp hne⟩
      | carried => exact .inr ⟨.inr rfl, by_contra fun hne => by simpa [hst] using hroute.mp hne⟩
      | routed => exact .inl ⟨.inl rfl, hroute.mpr (.inl hst)⟩
      | due => exact .inl ⟨.inr rfl, hroute.mpr (.inr (.inl hst))⟩
      | fired => exact absurd hst hunfired
    rw [State.withdraw_lone hs.slots hr hc (hs.members_alone hr hc) hst] at h
    obtain rfl := Option.some.inj h
    exact (hs.withdrawnLone hr hc hst).of_tc (congrArg Tc.records (State.drainCheck_tc _)) (State.accounts_drainCheck _)
  · obtain ⟨ms, hms⟩ : ∃ ms, ms = (s.membersOf r.leaderTag).filter (fun q => q.tag != r.tag) := ⟨_, rfl⟩
    have hmem : ∀ q, q ∈ ms ↔ q ∈ s.tc.records ∧ q.leaderTag = r.leaderTag ∧ q.tag ≠ r.tag := fun q => by
      rw [hms, List.mem_filter, State.mem_membersOf, bne_iff_ne, and_assoc]
    have hne : ms ≠ [] := fun hnil => by
      have hlen := (hs.cluster_size hr hc).1
      have hone : ∀ q ∈ s.membersOf r.leaderTag, q = r := fun q hq => by
        obtain ⟨hq, ht⟩ := State.mem_membersOf.mp hq
        by_contra hne
        have hin : q ∈ ms := (hmem q).mpr ⟨hq, ht, fun e => hne (State.eq_of_tag hs.slots hr hq e)⟩
        rw [hnil] at hin
        cases hin
      have hnodup : (s.membersOf r.leaderTag).Nodup := List.Nodup.of_map _ (State.membersOf_nodup hs.slots _)
      have hsub : (s.membersOf r.leaderTag).length ≤ [r].length := (List.subperm_of_subset hnodup fun q hq => List.mem_singleton.mpr (hone q hq)).length_le
      simp only [List.length_singleton] at hsub
      omega
    obtain ⟨first, rest, hfirst⟩ := List.exists_cons_of_ne_nil hne
    have hfirstm : first ∈ ms := hfirst ▸ List.mem_cons_self
    obtain ⟨lead, hlead, hled⟩ : ∃ lead ∈ ms, lead.tag = if r.leaderTag = r.tag then first.tag else r.leaderTag := by
      by_cases hself : r.leaderTag = r.tag
      · exact ⟨first, hfirstm, (if_pos hself).symm⟩
      · obtain ⟨l, hl, hlt, hleads, -⟩ := hs.clustered.leader r hr
        exact ⟨l, (hmem l).mpr ⟨hl, (Record.leaderTag_of_leads hleads).trans hlt, fun e => hself (hlt.symm.trans e)⟩, hlt.trans (if_neg hself).symm⟩
    have hleaving : s.Leaving r lead ms := ⟨hs, hr, hc, hunfired, hms, hlead, first, by rw [hfirst]; rfl, hled⟩
    rw [hleaving.withdraw] at h
    obtain rfl := Option.some.inj h
    split
    · have hl := List.mem_of_find?_eq_some hleaving.find_lead
      have hdecided := hleaving.booksLaw.decideIfReached hl ((s.relinked_leader ..).trans (s.relinked_tag ..).symm)
      rw [s.relinked_tag] at hdecided
      exact hdecided
    · exact hleaving.booksLaw

end Sys2Proof.Machine
end

section
/-! PROOFS. The books kept by a new record: alone, linked with the PENDING clusters that it overlaps, or carried with them (R32 to R36). -/

namespace Sys2Proof.Machine

/-! ### The record in its place -/

/-- A record as a notice makes it, in a slot that is FREE (R32). -/
structure State.Admits (s : State) (r : Record) : Prop where
  free : ∀ q ∈ s.tc.records, q.slot ≠ r.slot
  pending : r.state = .pending
  alone : r.cluster = none
  route : r.route = none
  carry : r.carry = none

section
variable {s : State} {r : Record}

/-- No live record is led by the new one (R35). -/
theorem State.Admits.apart (h : s.Admits r) (hs : s.booksLaw) : Separate [r] s.tc.records := fun x hx q hq e => by
  rw [List.mem_singleton.mp hx, Record.leaderTag_of_leads (Record.leads_of_none h.alone)] at e
  obtain ⟨l, hl, hlt, -⟩ := hs.clustered.leader q hq
  exact h.free l hl (congrArg Tag.slot (hlt.trans e.symm))

theorem State.Admits.stated (h : s.Admits r) : r.Stated :=
  ⟨by simp [h.route, h.pending], by simp [h.carry, h.pending], fun _ => h.alone⟩

/-- A new record among the live ones keeps the books (R32). -/
theorem State.booksLaw.inserted (hs : s.booksLaw) (h : s.Admits r) : (s.inserted r).booksLaw := by
  have hbooks : Books ([] ++ s.tc.records) s.accounts := s.booksLaw_iff.mp hs
  have hone : ∀ x ∈ [r], x = r := fun x hx => List.mem_singleton.mp hx
  have hfree : ∀ x ∈ [r], x.route = none := fun x hx => hone x hx ▸ h.route
  refine State.booksLaw_of_perm (hbooks.exchange (ms' := [r]) (fun x hx => by cases hx) (List.nodup_cons.mpr ⟨fun hin => ?_, hs.slots⟩) (h.apart hs) (fun x hx => hone x hx ▸ h.stated)
    (fun x hx => Record.linked_of_none (hone x hx ▸ h.alone) _) fun o => (hbooks.accounts o).of_absent (fun x hx => by cases hx) (.of_free hfree o))
    (insertByStamp_perm r s.tc.records) fun _ => rfl
  obtain ⟨q, hq, e⟩ := List.mem_map.mp hin
  exact h.free q hq e

/-! ### Linked with what it overlaps -/

theorem State.linked_leader (s : State) (t : Tag) (n : Nat) (q : Record) : (s.linked t n q).leaderTag = t := by
  unfold State.linked
  split
  · next h => exact h
  · rfl

theorem State.linked_keeps (s : State) (t : Tag) (n : Nat) (q : Record) : (s.linked t n q).state = q.state ∧ (s.linked t n q).route = q.route ∧ (s.linked t n q).carry = q.carry := by
  unfold State.linked
  split <;> exact ⟨rfl, rfl, rfl⟩

theorem State.linked_cluster (s : State) (t : Tag) (n : Nat) (q : Record) : (s.linked t n q).cluster = if q.tag = t then some (.leader n) else some (.member t) := by
  unfold State.linked
  split <;> rfl

/-- PENDING clusters linked as one in their place (R35). -/
theorem replaces_linked {ms rest : List Record} {acc : OutletNo → Account} (h : Books (ms ++ rest) acc) {lead : Record} (hlead : lead ∈ ms) (hpending : ∀ q ∈ ms, q.state = .pending)
    (hfree : ∀ q ∈ ms, q.route = none) (hlo : 2 ≤ ms.length) (hhi : ms.length ≤ 8) (s : State) : Replaces ms (ms.map (s.linked lead.tag ms.length)) where
  slots := by
    rw [List.map_map]
    have hslot : (fun r : Record => r.slot) ∘ s.linked lead.tag ms.length = fun r => r.slot := funext fun q => congrArg Tag.slot (s.linked_tag lead.tag ms.length q)
    rw [hslot]
  lead q' hq' := by
    obtain ⟨q, -, rfl⟩ := List.mem_map.mp hq'
    exact ⟨lead, hlead, .inr (s.linked_leader lead.tag ms.length q)⟩
  stated q' hq' := by
    obtain ⟨q, hq, rfl⟩ := List.mem_map.mp hq'
    obtain ⟨hstate, hroute, hcarry⟩ := s.linked_keeps lead.tag ms.length q
    have hs := h.stated q (List.mem_append_left rest hq)
    refine ⟨?_, ?_, fun hc => ?_⟩
    · rw [hroute, hstate]
      exact hs.route
    · rw [hcarry, hstate]
      exact hs.carry
    · rw [hstate, hpending q hq] at hc
      cases hc
  linked q' hq' := by
    obtain ⟨q, hq, rfl⟩ := List.mem_map.mp hq'
    have hcluster := s.linked_cluster lead.tag ms.length
    refine ⟨fun t ht => ?_, fun n hn => ?_⟩
    · rw [hcluster] at ht
      by_cases hq : q.tag = lead.tag
      · rw [if_pos hq] at ht
        cases ht
      · rw [if_neg hq] at ht
        cases ht
        have hkeeps := s.linked_keeps lead.tag ms.length
        refine ⟨_, List.mem_map_of_mem hlead, s.linked_tag .., ⟨ms.length, (hcluster lead).trans (if_pos rfl)⟩, ?_, ?_⟩
        · rw [(hkeeps lead).1, (hkeeps q).1, hpending lead hlead, hpending q ‹_›]
        · unfold Record.goal
          rw [(hkeeps lead).2.1, (hkeeps q).2.1, hfree lead hlead, hfree q ‹_›]
    · rw [hcluster] at hn
      by_cases hq : q.tag = lead.tag
      · rw [if_pos hq] at hn
        cases hn
        have hall : clusterOf (s.linked lead.tag ms.length q).tag (ms.map (s.linked lead.tag ms.length)) = ms.map (s.linked lead.tag ms.length) := by
          refine List.filter_eq_self.mpr fun x hx => ?_
          obtain ⟨p, -, rfl⟩ := List.mem_map.mp hx
          rw [s.linked_leader, s.linked_tag, hq]
          exact beq_self_eq_true _
        rw [hall, List.length_map]
        exact ⟨rfl, hlo, hhi⟩
      · rw [if_neg hq] at hn
        cases hn

/-- The merged set shares no cluster with the rest of the table (R34). -/
theorem State.Admits.merged_apart (h : s.Admits r) (hs : s.booksLaw) {q : Record} (hq : q ∈ s.tc.records) (hnot : q ∉ s.mergedSet r) {x : Record} (hx : x ∈ r :: s.mergedSet r) :
    x.leaderTag ≠ q.leaderTag := fun e => by
  obtain rfl | hx := List.mem_cons.mp hx
  · exact h.apart hs x (List.mem_singleton_self x) q hq e
  · obtain ⟨-, hit, hhit, hover, hlead⟩ := State.mem_mergedSet.mp hx
    exact hnot (State.mem_mergedSet.mpr ⟨hq, hit, hhit, hover, hlead.trans e⟩)

/-- A new record linked with the PENDING clusters it overlaps keeps the books (R35). -/
theorem State.booksLaw.links (hs : s.booksLaw) (h : s.Admits r) (hne : s.mergedSet r ≠ []) (hpending : ∀ q ∈ s.mergedSet r, q.state = .pending) (hlen : (s.mergedSet r).length ≤ 7) :
    (s.enterRecord r).booksLaw := by
  obtain ⟨list, hlist⟩ : ∃ list, list = insertByStamp r s.tc.records := ⟨_, rfl⟩
  have henters : s.Enters r list := ⟨hs.slots, h.free, hlist.symm⟩
  have hinserted : (s.setRecords list).booksLaw := hlist ▸ hs.inserted h
  obtain ⟨hmerged, hiff⟩ := henters.merged
  obtain ⟨m, hm⟩ : ∃ m, m = s.mergedSet r := ⟨_, rfl⟩
  rw [← hm] at hne hpending hlen hmerged hiff
  obtain ⟨picked, hpicked⟩ : ∃ p : Record → Bool, p = fun x => x.tag == r.tag || m.any (fun y => y.tag == x.tag) := ⟨_, rfl⟩
  have hiff : ∀ x ∈ list, picked x = true ↔ x ∈ r :: m := by
    rw [hpicked]
    exact hiff
  have hmerged : (list.filter picked).Perm (r :: m) := by
    rw [hpicked]
    exact hmerged
  have hall : ∀ q ∈ r :: m, q.state = .pending := fun q hq => (List.mem_cons.mp hq).elim (fun e => e ▸ h.pending) (hpending q)
  have hlive : ∀ q ∈ r :: m, q ∈ list := fun q hq => List.mem_of_mem_filter (hmerged.mem_iff.mpr hq)
  obtain ⟨lead, hfind⟩ : ∃ lead, list.find? picked = some lead :=
    Option.isSome_iff_exists.mp (List.find?_isSome.mpr ⟨r, hlive r List.mem_cons_self, (hiff r (hlive r List.mem_cons_self)).mpr List.mem_cons_self⟩)
  obtain ⟨hlead, pre, post, hsplit, hpre⟩ := List.find?_eq_some_iff_append.mp hfind
  have hleadl : lead ∈ list := hsplit ▸ List.mem_append_right _ List.mem_cons_self
  have hin := (hiff lead hleadl).mp hlead
  rw [henters.links hm.symm hne hpending hlen hsplit hin fun q hq hin => by
    have hnot := hpre q hq
    rw [(hiff q (hsplit ▸ List.mem_append_left _ hq)).mpr hin] at hnot
    cases hnot]
  have hperm : list.Perm ((r :: m) ++ list.filter (fun q => !picked q)) := (List.filter_append_perm picked list).symm.trans (hmerged.append_right _)
  have hbooks := hinserted.books hperm
  have happart : Separate (r :: m) (list.filter (fun q => !picked q)) := fun x hx q hq => by
    obtain ⟨hq, hnot⟩ := List.mem_filter.mp hq
    have hout : q ∉ r :: m := fun hin => by
      rw [(hiff q hq).mpr hin] at hnot
      cases hnot
    rw [hm] at hx hout
    have hqlive := (henters.mem.mp hq).resolve_left fun e => hout (e ▸ List.mem_cons_self)
    exact h.merged_apart hs hqlive (fun hin => hout (List.mem_cons_of_mem r hin)) hx
  have hfree : ∀ q ∈ r :: m, q.route = none := fun q hq => by
    by_contra hne
    have hst := (hinserted.routes q (hlive q hq)).mp hne
    rw [hall q hq] at hst
    simp at hst
  have hpos : 0 < m.length := List.length_pos_of_ne_nil hne
  have hreplaces := replaces_linked hbooks hin hall hfree (by rw [List.length_cons]; omega) (by rw [List.length_cons]; omega) s
  have hfree' : ∀ q' ∈ (r :: m).map (s.linked lead.tag (r :: m).length), q'.route = none := fun q' hq' => by
    obtain ⟨q, hq, rfl⟩ := List.mem_map.mp hq'
    exact (s.linked_keeps ..).2.1.trans (hfree q hq)
  have hlinked := State.booksLaw_of_perm (s := (s.setRecords list).withEach (r :: m) (s.linked lead.tag (r :: m).length)) (hbooks.exchange_free happart hreplaces hfree hfree')
    (State.withEach_perm henters.tableLaw hperm _) fun _ => rfl
  have hdecided := hlinked.decideIfReached (r := s.linked lead.tag (r :: m).length lead) (List.mem_map.mpr ⟨lead, hleadl, if_pos (List.mem_map_of_mem hin)⟩)
    ((s.linked_leader ..).trans (s.linked_tag ..).symm)
  rw [s.linked_tag] at hdecided
  exact hdecided

/-! ### Carried with what it overlaps -/

/-- The merged set CARRIED, cluster by cluster, keeps the books (R36). -/
theorem State.booksLaw.carryOverlap (why : CarryReason) : ∀ (ts : List Tag) {s : State}, s.booksLaw → (s.carryOverlap why ts).booksLaw
  | [], _, hs => hs
  | t :: rest, s, hs => by
    refine State.booksLaw.carryOverlap why rest (s := match s.find t with
      | some r => if r.state = .fired ∨ r.state = .carried then s else s.carryCluster why r.leaderTag
      | none => s) ?_
    cases hfind : s.find t with
    | none => exact hs
    | some r =>
      dsimp only
      by_cases hst : r.state = .fired ∨ r.state = .carried
      · rw [if_pos hst]
        exact hs
      · rw [if_neg hst]
        refine hs.carryCluster (List.mem_of_find?_eq_some hfind) ?_ why
        cases hr : r.state with
        | pending => exact .inl rfl
        | routed => exact .inr (.inl rfl)
        | due => exact .inr (.inr rfl)
        | fired => exact absurd (.inl hr) hst
        | carried => exact absurd (.inr hr) hst

/-- A new record grouped with what it overlaps keeps the books (R32 to R36). -/
theorem State.booksLaw.enterRecord (hs : s.booksLaw) (h : s.Admits r) : (s.enterRecord r).booksLaw := by
  have hinserted := hs.inserted h
  by_cases hnone : s.mergedSet r = []
  · have hpointed : ((s.inserted r).mapRecords (fun x => x.tag == r.tag) (fun x => { x with waypoint := some ((s.inserted r).decisionPoint x) })).booksLaw :=
      hinserted.mapRecords_same fun _ => ⟨rfl, rfl, rfl, rfl, rfl, rfl⟩
    have hself : r.leaderTag = r.tag := Record.leaderTag_of_leads (Record.leads_of_none h.alone)
    have hdecided := hpointed.decideIfReached (r := { r with waypoint := some ((s.inserted r).decisionPoint r) })
      (List.mem_map.mpr ⟨r, mem_insertByStamp.mpr (.inl rfl), if_pos (beq_self_eq_true _)⟩) hself
    unfold State.enterRecord
    dsimp only
    rw [hnone]
    exact hdecided
  · by_cases hlinks : (∀ q ∈ s.mergedSet r, q.state = .pending) ∧ (s.mergedSet r).length ≤ 7
    · exact hs.links h hnone hlinks.1 hlinks.2
    · have hcarries : ¬((s.mergedSet r).all (fun x => x.state == .pending) && decide ((s.mergedSet r).length < 8)) = true := fun hall => by
        rw [Bool.and_eq_true, List.all_eq_true, decide_eq_true_eq] at hall
        exact hlinks ⟨fun q hq => beq_iff_eq.mp (hall.1 q hq), by omega⟩
      unfold State.enterRecord
      dsimp only
      rw [if_neg (by simpa using hnone), if_neg hcarries]
      exact .carryOverlap _ _ hinserted

end

end Sys2Proof.Machine
end

section
/-! PROOFS. The books kept by every change, every command and every step (spec/02). -/

namespace Sys2Proof.Machine

/-! ### Changes -/

/-- A change of an outlet beside its books leaves its account. -/
theorem Beside.account {new old : Outlet} (h : Beside new old) : new.account = old.account := by
  have hwaiting : new.account.waiting = old.account.waiting := by
    unfold Outlet.account
    dsimp only
    cases hold : old.request with
    | none =>
      cases hnew : new.request with
      | none => rfl
      | some w =>
        cases w with
        | test => rfl
        | deadline ms late u => exact absurd ((h.deadline ms late u).mp hnew) (by rw [hold]; exact fun e => by cases e)
    | some w =>
      cases w with
      | deadline ms late u => rw [(h.deadline ms late u).mpr hold]
      | test =>
        cases hnew : new.request with
        | none => rfl
        | some w =>
          cases w with
          | test => rfl
          | deadline ms late u => exact absurd ((h.deadline ms late u).mp hnew) (by rw [hold]; exact fun e => by cases e)
  have hcommitted : new.account.committed = old.account.committed := h.committed
  have hheld : new.account.held = old.account.held := h.strokeSet
  exact (Account.mk.injEq ..).mpr ⟨hcommitted, hheld, hwaiting⟩

/-- A member of a cluster brings its tag. -/
theorem State.member_leads {s : State} {t : Tag} {r : Record} (h : r ∈ s.membersOf t) : r ∈ s.tc.records ∧ t = r.leaderTag :=
  ⟨(State.mem_membersOf.mp h).1, (State.mem_membersOf.mp h).2.symm⟩

/-- Every deed keeps the books. -/
theorem Deed.booksLaw {s t : State} (h : Deed s t) (hs : s.booksLaw) : t.booksLaw := by
  cases h with
  | ends h => exact hs.retireEnded h
  | abandons h => exact hs.abandonLate h
  | fires h => exact hs.fireCluster h
  | decides h =>
    obtain ⟨r, hm, hst⟩ := h
    obtain ⟨hr, rfl⟩ := State.member_leads hm
    exact hs.decisionWalk hr hst
  | reroutes h =>
    obtain ⟨r, hm, hw⟩ := h
    obtain ⟨hr, rfl⟩ := State.member_leads hm
    exact hs.reroute hr (Record.waitsAt_iff.mp hw).1
  | grants => exact hs.grantDecision
  | confirms h => exact hs.confirmSet h
  | misses h => exact hs.missSet h
  | losesSet => exact hs.loseSet _
  | amends hr h => exact hs.amend hr h
  | withdraws hr h => exact hs.withdraw hr h

/-- A table emptied with every outlet's work given up keeps the books (R54, R110, R132). -/
theorem State.booksLaw_of_cleared {s t : State} (hr : t.tc.records = []) (ho : t.outlets = (s.mapOutlets fun _ => Outlet.clearWork).outlets) : t.booksLaw := by
  have hout : ∀ o, t.outlet o = (s.outlet o).clearWork := fun o => by
    rw [State.outlet, ho]
    exact State.outlet_mapOutlets s _ o
  exact State.booksLaw_of_empty hr (fun o => by rw [hout]; rfl) (fun o => by rw [hout]; rfl) fun o => by rw [hout]; rfl

theorem State.powerOn_booksLaw (s : State) (csLow : Bool) : (s.powerOn csLow).booksLaw := by
  have hout := s.outlet_powerOn csLow
  exact State.booksLaw_of_empty rfl (fun o => by rw [hout]; rfl) (fun o => by rw [hout]; rfl) fun o => by rw [hout]; rfl

/-- Every change keeps the books. -/
theorem Change.booksLaw {c : Instr} {s t : State} (h : Change c s t) (hs : s.booksLaw) : t.booksLaw := by
  cases h with
  | aside h => exact hs.of_tc (by rw [h.tc]) (funext fun o => congrArg (fun v => (vget v o).account) h.outlets)
  | outlets hb => exact hs.of_tc rfl (funext fun o => (hb o).account)
  | @strokeEnds o x hb =>
    refine hs.of_tc rfl (funext fun j => ?_)
    show ((s.setOutlet o x).outlet j).account = (s.outlet j).account
    rw [State.outlet_setOutlet]
    split
    · next e => exact e ▸ hb.account
    · rfl
  | deed h => exact h.booksLaw hs
  | drains => exact hs.of_tc (congrArg Tc.records s.drainCheck_tc) s.accounts_drainCheck
  | failsafe =>
    by_cases hf : s.service = .failsafe
    · rw [State.enterFailsafe_of_failsafe hf]
      exact hs
    · obtain ⟨gens, keys, he, -⟩ := State.enterFailsafe_eq hf
      rw [he]
      exact State.booksLaw_of_cleared (s := s) rfl rfl
  | tracking =>
    obtain ⟨gens, keys, he, -⟩ := s.trackingReset_eq
    rw [he]
    exact State.booksLaw_of_cleared (s := s) rfl rfl
  | powerOn => exact s.powerOn_booksLaw _
  | counts | link | credits | numbers | figures | moves | rebases | service | plan | clears => exact hs.of_tc rfl rfl

theorem Chain.booksLaw {c : Instr} {s t : State} (h : Chain c s t) : s.booksLaw → t.booksLaw :=
  h.keeps (R := fun s t => s.booksLaw → t.booksLaw) (fun _ => id) (fun _ _ _ h k hs => k (h hs)) fun _ _ => Change.booksLaw

/-! ### Commands and steps -/

/-- Every command keeps the books. -/
theorem exec_booksLaw {c : Instr} {s t : State} (h : exec c s = .next t) (hs : s.booksLaw) : t.booksLaw := by
  obtain hc | ⟨w, n, stamp, len, cls, key, clamped, slot, ha, hslot, ht⟩ := exec_next h
  · exact hc.booksLaw hs
  · rw [ht]
    exact (ha.numbered.booksLaw hs).enterRecord ⟨(State.freeSlot_some hslot).1, rfl, rfl, rfl, rfl⟩

/-- Settles O59: every change that a command is made of keeps the books, and the commands that move the belt move the high-water mark by one tick at most. -/
theorem everyStepKeepsTheBooks : Obligations.EveryStepKeepsTheBooks := by
  intro s t h
  obtain rfl | ⟨c, rest, hc⟩ := step_next h
  · exact ⟨id, fun _ _ _ => id⟩
  · exact ⟨fun hs => exec_booksLaw hc (hs.of_tc rfl rfl), fun hrest hlive hnew ho => exec_orderLaw hc hrest hlive hnew ho⟩

end Sys2Proof.Machine
end
